-- ==== Sys2Proof/Word.lean ====
section
/-! DEFINITION. The words of the bus and the names a transaction is made of (R37, R47, R49, R50). -/

namespace Sys2Proof

/-- One byte of the endpoint's stream. -/
abbrev Byte := BitVec 8

/-- A bus data word and a register: `DATA_W` = 32 bits (R3, D2). -/
abbrev Word := BitVec 32

/-- A physical address: `ADDR_W` = 32 bits (R3, R27, D2). -/
abbrev Addr := BitVec 32

/-- A transaction key `K[39:0]` (R47). -/
abbrev Key := BitVec 40

/-- The direction of an access (R21). -/
inductive Dir where
  | read
  | write
deriving DecidableEq, Repr

/-- The size of an access: 1, 2, 4 or 8 bytes (R37, R49). -/
inductive Size where
  | b1
  | b2
  | b4
  | b8
deriving DecidableEq, Repr

/-- What a transaction carries: a write carries its data word, a read carries none (R47, R50). -/
inductive Xfer where
  | read
  | write (d : Word)
deriving DecidableEq, Repr

/-- One bus transaction as the bus master issues it: `BusRead` or `BusWrite` of R5. It has an address, a size and a
direction, and no other attribute (R99). -/
structure Access where
  addr : Addr
  size : Size
  xfer : Xfer
deriving DecidableEq, Repr

/-- The two ROM slots, k in {0, 1} (R28). -/
inductive Slot where
  | rom0
  | rom1
deriving DecidableEq, Repr

/-- The targets of the mux that lie outside the block (R31). -/
inductive MemTarget where
  | ram
  | rom (k : Slot)
deriving DecidableEq, Repr

/-- One transaction handed to RAM or a flash: `MemRead` or `MemWrite` of R5 (R31). -/
structure Forward where
  target : MemTarget
  access : Access
deriving DecidableEq, Repr

/-- The response of a transaction (R50, R89). -/
inductive Resp where
  | ok
  | error
deriving DecidableEq, Repr, Inhabited

end Sys2Proof
end

