-- ==== Sys2Proof/Config.lean ====
section
/-! DEFINITION. The implementation parameters of R3, the board profile, and the free values. -/

namespace Sys2Proof

/-- What the CPU does on an ERROR response, `CPU_BUS_ERROR_ACTION` (R3, R92, D26). The CPU is out of scope and no rule
of the block reads this parameter: it is carried for a model of the whole machine (notes/assumptions/19). -/
inductive CpuBusErrorAction where
  | takeAbort
  | ignore
deriving DecidableEq, Repr

/-- The parameters of R3: "A model takes each as a configuration field", and so each row of R3's table is a field. Bases,
offsets and sizes are counts of bytes; addresses on the bus are `Addr`. What the rules write as a number where R3 has a name
is read from the field of that name (notes/assumptions/3). -/
structure Config where
  /-- `ADDR_W`, in bits. A key has room for 32 (R47); `Config.wf` admits no other (notes/assumptions/3). -/
  addrWidth : Nat
  /-- `DATA_W`, in bits. A data word has 32 (R47, R59); `Config.wf` admits no other (notes/assumptions/3). -/
  dataWidth : Nat
  /-- `ACCESS_SIZE`: the only size a device window accepts (R37). -/
  accessSize : Size
  /-- `REG_SHIFT`: index = offset >> REG_SHIFT (R8). -/
  regShift : Nat
  /-- `NUM_TIMERS`. -/
  numTimers : Nat
  /-- `TIMER_STRIDE`. -/
  timerStride : Nat
  /-- `TIMER_WIN`. -/
  timerWin : Nat
  /-- `TIMER_LIMIT` (R13): fixed after composition, so "the same at every step". -/
  timerLimit : Word
  /-- `VALUE_MASK` (R15, R64). -/
  valueMask : Word
  /-- `TIMER_BASE`. -/
  timerBase : Nat
  /-- `TIMER_CONTROL_OFF`. -/
  timerControlOff : Nat
  /-- `TIMER_VALUE_OFF`. -/
  timerValueOff : Nat
  /-- `TIMER_FREQ_HZ`; no rule depends on it (R119). -/
  timerFreqHz : Nat
  /-- `ZERO_VISIBLE` (D11). -/
  zeroVisible : Bool
  /-- `UART_WIN`. -/
  uartWin : Nat
  /-- `UART_STRIDE`: the distance in bytes between UART register offsets; no rule names it, and it gives the UART's
  register count, which R8 writes `WIN / 4` (notes/assumptions/3). -/
  uartStride : Nat
  /-- The `RX_READY` bit of STATUS (R17). -/
  rxReadyBit : Fin 32
  /-- The `TX_READY` bit of STATUS (R17). -/
  txReadyBit : Fin 32
  /-- `UART_BASE`. -/
  uartBase : Nat
  /-- `UART_TX_OFF`. -/
  uartTxOff : Nat
  /-- `UART_RX_OFF`. -/
  uartRxOff : Nat
  /-- `UART_ST_OFF`. -/
  uartStOff : Nat
  /-- `ROM0_BASE`. -/
  rom0Base : Nat
  /-- `ROM1_BASE`. -/
  rom1Base : Nat
  /-- `ROM_MAX_SIZE`. -/
  romMaxSize : Nat
  /-- `RAM_SIZE`. -/
  ramSize : Nat
  /-- `START_ADDR`, if the profile gives one. -/
  startAddr : Option Addr
  /-- `ROM_FILE_0`, the image's file name, if the profile gives one. -/
  romFile0 : Option String
  /-- `ROM_FILE_1`. -/
  romFile1 : Option String
  /-- `FLASH_SIZE_0`. -/
  flashSize0 : Nat
  /-- `FLASH_SIZE_1`. -/
  flashSize1 : Nat
  /-- `ENDPOINT_CONNECTED`. -/
  endpointConnected : Bool
  /-- `CPU_BUS_ERROR_ACTION`. -/
  cpuBusErrorAction : CpuBusErrorAction
deriving DecidableEq, Repr

/-- `ROM_FILE_k`. -/
def Config.romFile (c : Config) : Slot → Option String
  | .rom0 => c.romFile0
  | .rom1 => c.romFile1

/-- `ROMk_BASE`. -/
def Config.romBase (c : Config) : Slot → Nat
  | .rom0 => c.rom0Base
  | .rom1 => c.rom1Base

/-- `FLASH_SIZE_k`. -/
def Config.flashSize (c : Config) : Slot → Nat
  | .rom0 => c.flashSize0
  | .rom1 => c.flashSize1

/-- The default parameters of R3 with the profile of V-S6 (95_test_vectors.md): 64 MiB of RAM, no ROM image, no entry
address, and an endpoint connected. PRESUMED: the bases, offsets and rate are the spec's [from general knowledge, not in
source] defaults (notes/assumptions/4). DESIGN CHOICE: the profile, and the value `.ignore` of `CPU_BUS_ERROR_ACTION`, which
R3 and D26 leave OPEN with no default and no rule of the block reads (notes/assumptions/5 and 19). Unsafe as numbers; the
statements range over every configuration. -/
def Config.default : Config where
  addrWidth := 32
  dataWidth := 32
  accessSize := .b4
  regShift := 2
  numTimers := 3
  timerStride := 0x100
  timerWin := 0x100
  timerLimit := 0xFFFF
  valueMask := 0xFFFF
  timerBase := 0xC0210000
  timerControlOff := 0x00
  timerValueOff := 0x0C
  timerFreqHz := 1000000
  zeroVisible := false
  uartWin := 0x18
  uartStride := 4
  rxReadyBit := 0
  txReadyBit := 1
  uartBase := 0xC0800000
  uartTxOff := 0x00
  uartRxOff := 0x04
  uartStOff := 0x14
  rom0Base := 0xF0000000
  rom1Base := 0xF8000000
  romMaxSize := 0x08000000
  ramSize := 0x04000000
  startAddr := none
  romFile0 := none
  romFile1 := none
  flashSize0 := 0x08000000
  flashSize1 := 0x08000000
  endpointConnected := true
  cpuBusErrorAction := .ignore

/-- FREE VALUE: the data a read forwarded to RAM or a flash returns. "Its result (data and response) is the target's"
(R31), and the targets are out of scope. It may depend on everything handed to the targets so far, this transaction
last, and on a fresh index (DESIGN CHOICE, safe; notes/assumptions/6). -/
opaque Config.targetData (history : List Forward) (draw : Nat) : Word

/-- FREE VALUE: the response of a forwarded transaction (R31; DESIGN CHOICE, safe; notes/assumptions/6). -/
opaque Config.targetResp (history : List Forward) (draw : Nat) : Resp

/-- FREE VALUE: what the TX register holds after a write of `d`: "nothing reads it back, so its content is unobservable"
(R18; DESIGN CHOICE, safe; notes/assumptions/7). -/
opaque Config.txAfterWrite (d : Word) (draw : Nat) : Word

end Sys2Proof
end

