-- ==== Sys2Proof/Syntax.lean ====
section
/-! DEFINITION. The operations of the block: one constructor per row of spec/opcode_table.json, and the operation as the
agents present it (a key and a data word). -/

namespace Sys2Proof

/-- The argument of an endpoint event: `A[0]` = 0 connect, 1 disconnect (R56, R85). -/
inductive EpEvent where
  | connect
  | disconnect
deriving DecidableEq, Repr

/-- The operations of the block. `n` is a timer instance, `off` the offset of an access in its window, `d` the data word of
a write, `x` a whole transaction, `b` a delivered byte and `k` a key. -/
inductive Instr where
  /-- TIMER_WR_CONTROL, R63. -/
  | timerWrControl (n : Nat) (d : Word)
  /-- TIMER_RD_VALUE, R64. -/
  | timerRdValue (n : Nat)
  /-- TIMER_RD_CONTROL, R65. -/
  | timerRdControl (n : Nat)
  /-- TIMER_WR_VALUE, R66. -/
  | timerWrValue (n : Nat) (d : Word)
  /-- TIMER_RD_RSVD, R67. -/
  | timerRdRsvd (n : Nat) (off : Nat)
  /-- TIMER_WR_RSVD, R68. -/
  | timerWrRsvd (n : Nat) (off : Nat) (d : Word)
  /-- UART_RD_TX, R74. -/
  | uartRdTx
  /-- UART_RD_RX, R75. -/
  | uartRdRx
  /-- UART_RD_ST, R76. -/
  | uartRdSt
  /-- UART_WR_TX, R77. -/
  | uartWrTx (d : Word)
  /-- UART_WR_RX, R78. -/
  | uartWrRx (d : Word)
  /-- UART_WR_ST, R79. -/
  | uartWrSt (d : Word)
  /-- UART_RD_RSVD, R80. -/
  | uartRdRsvd (off : Nat)
  /-- UART_WR_RSVD, R81. -/
  | uartWrRsvd (off : Nat) (d : Word)
  /-- BUS_UNMAPPED, R32. -/
  | busUnmapped (x : Access)
  /-- RAM_ACCESS, R31. -/
  | ramAccess (x : Access)
  /-- ROM_ACCESS, R31: an access to the flash of slot `k`. -/
  | romAccess (k : Slot) (x : Access)
  /-- BUS_BAD_SIZE, R38. -/
  | busBadSize (x : Access)
  /-- BUS_MISALIGNED, R39. -/
  | busMisaligned (x : Access)
  /-- TIMER_TICK, R69. -/
  | timerTick (n : Nat)
  /-- UART_RECEIVE, R83: the row whose state condition is RX_READY = 0. -/
  | uartReceive (b : Byte)
  /-- UART_RECEIVE_VIOLATION, R84: the row of the same key whose state condition is RX_READY = 1. -/
  | uartReceiveViolation (b : Byte)
  /-- UART_CAN_RECEIVE, R82. -/
  | uartCanReceive
  /-- RESET, R112. -/
  | reset
  /-- UART_EP_EVENT, R85. -/
  | uartEpEvent (ev : EpEvent)
  /-- REFUSED_RSV, R57: a key with RSV = 1. -/
  | refusedRsv (k : Key)
  /-- REFUSED_KIND_6_7, R57. -/
  | refusedKind67 (k : Key)
  /-- REFUSED_KIND_8_15, R57. -/
  | refusedKind815 (k : Key)
  /-- REFUSED_EVENT_ARG, R56: an event key whose fields are out of range. -/
  | refusedEventArg (k : Key)
deriving DecidableEq, Repr

/-- An operation as it is presented to the block: "a 40-bit transaction key plus, for a write, a 32-bit data word" (R47).
The data word of a key that is no write is not looked at. -/
structure Op where
  key : Key
  data : Word
deriving DecidableEq, Repr

end Sys2Proof
end

