-- ==== Sys2Proof/Machine/Mux.lean ====
section
/-! DEFINITION. The address mux: the region table and the routing function (R28, R29), and the register files' counts
(R8, R9). -/

namespace Sys2Proof.Machine

/-- The device or memory that answers an address (R29). -/
inductive Target where
  | ram
  | timer (n : Nat)
  | uart
  | rom (k : Slot)
  | unmapped
deriving DecidableEq, Repr

/-- One region of the table: the addresses `[lo, hi)` and what answers there (R28). -/
structure Region where
  lo : Nat
  hi : Nat
  target : Target
deriving DecidableEq, Repr

/-- The address lies in the range `[lo, hi)`. -/
def Region.holds (r : Region) (a : Nat) : Bool := decide (r.lo ≤ a) && decide (a < r.hi)

/-- No address lies in both ranges. -/
def Region.apart (r q : Region) : Bool := decide (min r.hi q.hi ≤ max r.lo q.lo)

/-- RAM: `[0, RAM_SIZE)`, always present (R28, R108). -/
def ramRegion (c : Config) : Region := ⟨0, c.ramSize, .ram⟩

/-- TIMER(n): `TIMER_WIN` bytes at `TIMER_BASE + n*TIMER_STRIDE` (R28, R106). -/
def timerRegion (c : Config) (n : Nat) : Region :=
  ⟨c.timerBase + n * c.timerStride, c.timerBase + n * c.timerStride + c.timerWin, .timer n⟩

/-- UART: `[UART_BASE, UART_BASE + UART_WIN)` (R28, R107). -/
def uartRegion (c : Config) : Region := ⟨c.uartBase, c.uartBase + c.uartWin, .uart⟩

/-- ROM(k): `[ROMk_BASE, ROMk_BASE + ROM_MAX_SIZE)` (R28, D25). -/
def romRegion (c : Config) (k : Slot) : Region := ⟨c.romBase k, c.romBase k + c.romMaxSize, .rom k⟩

/-- ROM(k) is present: "only when ROM_FILE_k is given" (R28, R109). -/
def romPresent (c : Config) (k : Slot) : Bool := (c.romFile k).isSome

/-- The regions of the timers, instance 0 first (R106). -/
def timerRegions (c : Config) : List Region := (List.range c.numTimers).map (timerRegion c)

/-- The regions of the ROM slots that are present, slot 0 first (R109). -/
def romRegions (c : Config) : List Region :=
  ([Slot.rom0, Slot.rom1].filter (romPresent c)).map (romRegion c)

/-- The region table of R28. -/
def regionTable (c : Config) : List Region :=
  ramRegion c :: (timerRegions c ++ uartRegion c :: romRegions c)

/-- The routing function of R29, its tests in the rule's order. -/
def route (c : Config) (a : Addr) : Target :=
  if (ramRegion c).holds a.toNat then .ram
  else
    match (List.range c.numTimers).find? (fun n => (timerRegion c n).holds a.toNat) with
    | some n => .timer n
    | none =>
      if (uartRegion c).holds a.toNat then .uart
      else if romPresent c .rom0 && (romRegion c .rom0).holds a.toNat then .rom .rom0
      else if romPresent c .rom1 && (romRegion c .rom1).holds a.toNat then .rom .rom1
      else .unmapped

/-- The lowest address of a target's region; the offset of an access is `off = addr - lo` (R29). -/
def regionBase (c : Config) : Target → Nat
  | .ram => (ramRegion c).lo
  | .timer n => (timerRegion c n).lo
  | .uart => (uartRegion c).lo
  | .rom k => (romRegion c k).lo
  | .unmapped => 0

/-- The index of a register file an offset selects: `offset >> REG_SHIFT` (R8). -/
def regIndex (c : Config) (off : Nat) : Nat := off >>> c.regShift

/-- The register count of a timer: `WIN / 4` (R8, D18). -/
def timerRegCount (c : Config) : Nat := c.timerWin / 4

/-- The register count of the UART: `WIN / 4` (R8, D18), the 4 being `UART_STRIDE` (notes/assumptions/3). -/
def uartRegCount (c : Config) : Nat := c.uartWin / c.uartStride

/-- The offset's index is below the device's register count; an access for which it is not is handled as an invalid access
(R9; notes/assumptions/17). -/
def inRegFile (c : Config) (count off : Nat) : Bool := decide (regIndex c off < count)

/-- An address exists: it is below `2^ADDR_W` (R27). -/
def addrExists (c : Config) (a : Nat) : Bool := decide (a < 2 ^ c.addrWidth)

/-- The address lies in a timer or UART window (R30). -/
def Target.isDevice : Target → Bool
  | .timer _ => true
  | .uart => true
  | _ => false

/-- Offset `off` of timer `n` is an aligned offset of an existing window, at an address that exists (R27, R28, R39). -/
def timerOffOk (c : Config) (n off : Nat) : Bool :=
  decide (n < c.numTimers) && decide (off < c.timerWin) && decide (off % 4 = 0)
  && addrExists c ((timerRegion c n).lo + off)

/-- Offset `off` is an aligned offset of the UART window, at an address that exists (R27, R28, R39). -/
def uartOffOk (c : Config) (off : Nat) : Bool :=
  decide (off < c.uartWin) && decide (off % 4 = 0) && addrExists c ((uartRegion c).lo + off)

/-- The offset of timer register `r` reaches that register: it is in the register file (R9). -/
def timerNamed (c : Config) (n r : Nat) : Bool := timerOffOk c n r && inRegFile c (timerRegCount c) r

/-- The offset of UART register `r` reaches that register: it is in the register file (R9). -/
def uartNamed (c : Config) (r : Nat) : Bool := uartOffOk c r && inRegFile c (uartRegCount c) r

/-- "any other" offset of a timer's register decode (R52): none of the two named offsets, or past the register count (R9). -/
def timerRsvd (c : Config) (off : Nat) : Bool :=
  !inRegFile c (timerRegCount c) off || (decide (off ≠ c.timerControlOff) && decide (off ≠ c.timerValueOff))

/-- "any other" offset of the UART's register decode (R53), or past the register count (R9). -/
def uartRsvd (c : Config) (off : Nat) : Bool :=
  !inRegFile c (uartRegCount c) off
  || (decide (off ≠ c.uartTxOff) && decide (off ≠ c.uartRxOff) && decide (off ≠ c.uartStOff))

/-- "off[1:0] = 0" for the offset of an address in its region (R39). -/
def alignedAccess (c : Config) (a : Addr) : Bool :=
  decide ((a.toNat - regionBase c (route c a)) % 4 = 0)

end Sys2Proof.Machine
end

