-- ==== Sys2Proof/Machine/Keys.lean ====
section
/-! DEFINITION. The transaction key: its fields (R47, R49) and the check of an event's arguments (R56). -/

namespace Sys2Proof.Machine

/-- `KIND`, K[39:36] (R47). -/
def keyKind (k : Key) : BitVec 4 := k.extractLsb' 36 4

/-- `RSV`, K[35] (R47). -/
def keyRsv (k : Key) : BitVec 1 := k.extractLsb' 35 1

/-- `SZ`, K[34:33] (R47). -/
def keySz (k : Key) : BitVec 2 := k.extractLsb' 33 2

/-- `W`, K[32] (R47). -/
def keyW (k : Key) : BitVec 1 := k.extractLsb' 32 1

/-- `A`, K[31:0] (R47). -/
def keyA (k : Key) : Addr := k.extractLsb' 0 32

/-- The key with the given fields (R47). -/
def mkKey (kind : BitVec 4) (rsv : BitVec 1) (sz : BitVec 2) (w : BitVec 1) (a : Addr) : Key :=
  kind ++ rsv ++ sz ++ w ++ a

/-- `SZ` as a size: `size = 1 << SZ` bytes (R49). -/
def sizeOfSz (z : BitVec 2) : Size :=
  if z = 0#2 then .b1 else if z = 1#2 then .b2 else if z = 2#2 then .b4 else .b8

/-- A size as `SZ` (R49). -/
def szOfSize : Size → BitVec 2
  | .b1 => 0#2
  | .b2 => 1#2
  | .b4 => 2#2
  | .b8 => 3#2

/-- `1 << SZ`, the number of bytes (R49). -/
def sizeBytes (z : Size) : Nat := 1 <<< (szOfSize z).toNat

/-- The transfer of an `ACCESS`: `W` = 1 is a write of the data word (R47, R50). -/
def xferOfW (w : BitVec 1) (d : Word) : Xfer := if w = 1#1 then .write d else .read

/-- The `W` bit of a transfer (R47). -/
def wOfXfer : Xfer → BitVec 1
  | .read => 0#1
  | .write _ => 1#1

/-- The data word that goes with a transfer; none is needed for a read, and 0 stands there (R47). -/
def dataOfXfer : Xfer → Word
  | .read => 0#32
  | .write d => d

/-- The direction of a transfer (R21). -/
def dirOfXfer : Xfer → Dir
  | .read => .read
  | .write _ => .write

/-- The arguments of an event key are in range: `W` = 0, `SZ` = 0, and `A` as R56's table has it. -/
def eventArgOk (c : Config) (k : Key) : Bool :=
  decide (keyW k = 0#1) && decide (keySz k = 0#2) &&
  (if keyKind k = 1#4 then decide ((keyA k).toNat < c.numTimers)
   else if keyKind k = 2#4 then decide ((keyA k).extractLsb' 8 24 = 0#24)
   else if keyKind k = 5#4 then decide ((keyA k).extractLsb' 1 31 = 0#31)
   else decide (keyA k = 0#32))

end Sys2Proof.Machine
end

