-- ==== Sys2Proof/WellFormed.lean ====
section
/-! DEFINITION. The checks on a configuration (R4) and on an operation (the operands R52, R53, R56 and the rows'
constraints admit). -/

namespace Sys2Proof

open Machine

/-- The parameter conditions of R4. A configuration that breaks one is refused: no machine is built (D24). R4's last is
"the regions of R28 do not overlap" (notes/assumptions/18). DESIGN CHOICE: "every base" is read as the four base parameters,
so `TIMER_STRIDE` may be no multiple of 4 (notes/assumptions/27). DESIGN CHOICE: the last two checks are not R4's but the
model's: the widths are those of a key's `A` and a data word (R47), and the two STATUS bits are two bits
(notes/assumptions/3). -/
def Config.wf (c : Config) : Bool :=
  decide (c.timerWin ≤ c.timerStride)
  && decide (c.timerControlOff ≠ c.timerValueOff)
  && decide (c.timerControlOff % 4 = 0 ∧ c.timerControlOff < c.timerWin)
  && decide (c.timerValueOff % 4 = 0 ∧ c.timerValueOff < c.timerWin)
  && decide (c.uartTxOff ≠ c.uartRxOff ∧ c.uartTxOff ≠ c.uartStOff ∧ c.uartRxOff ≠ c.uartStOff)
  && decide (c.uartTxOff % 4 = 0 ∧ c.uartTxOff < c.uartWin)
  && decide (c.uartRxOff % 4 = 0 ∧ c.uartRxOff < c.uartWin)
  && decide (c.uartStOff % 4 = 0 ∧ c.uartStOff < c.uartWin)
  && decide (c.timerBase % 4 = 0 ∧ c.uartBase % 4 = 0 ∧ c.rom0Base % 4 = 0 ∧ c.rom1Base % 4 = 0)
  && decide ((regionTable c).Pairwise (fun r q => r.apart q = true))
  && decide (c.addrWidth = 32 ∧ c.dataWidth = 32)
  && decide (c.rxReadyBit ≠ c.txReadyBit)

/-- The operand checks of the operations, one arm a row: the row's match, mask and constraint in spec/opcode_table.json. -/
def Instr.wf (c : Config) : Instr → Bool
  | .timerWrControl n _ => timerNamed c n c.timerControlOff
  | .timerRdValue n => timerNamed c n c.timerValueOff
  | .timerRdControl n => timerNamed c n c.timerControlOff
  | .timerWrValue n _ => timerNamed c n c.timerValueOff
  | .timerRdRsvd n off => timerOffOk c n off && timerRsvd c off
  | .timerWrRsvd n off _ => timerOffOk c n off && timerRsvd c off
  | .uartRdTx => uartNamed c c.uartTxOff
  | .uartRdRx => uartNamed c c.uartRxOff
  | .uartRdSt => uartNamed c c.uartStOff
  | .uartWrTx _ => uartNamed c c.uartTxOff
  | .uartWrRx _ => uartNamed c c.uartRxOff
  | .uartWrSt _ => uartNamed c c.uartStOff
  | .uartRdRsvd off => uartOffOk c off && uartRsvd c off
  | .uartWrRsvd off _ => uartOffOk c off && uartRsvd c off
  | .busUnmapped x => decide (route c x.addr = .unmapped)
  | .ramAccess x => decide (route c x.addr = .ram)
  | .romAccess k x => decide (route c x.addr = .rom k)
  | .busBadSize x => (route c x.addr).isDevice && decide (x.size ≠ c.accessSize)
  | .busMisaligned x =>
    (route c x.addr).isDevice && decide (x.size = c.accessSize) && !alignedAccess c x.addr
  | .timerTick n => decide (n < c.numTimers) && decide (n < 2 ^ 32)
  | .uartReceive _ => true
  | .uartReceiveViolation _ => true
  | .uartCanReceive => true
  | .reset => true
  | .uartEpEvent _ => true
  | .refusedRsv k => decide (keyRsv k = 1#1)
  | .refusedKind67 k => decide (keyRsv k = 0#1) && decide (keyKind k = 6#4 ∨ keyKind k = 7#4)
  | .refusedKind815 k => decide (keyRsv k = 0#1) && decide (8#4 ≤ keyKind k)
  | .refusedEventArg k =>
    decide (keyRsv k = 0#1) && decide (1#4 ≤ keyKind k ∧ keyKind k ≤ 5#4) && !eventArgOk c k

/-- The state condition of the two rows that share a key: UART_RECEIVE is the row of RX_READY = 0 and
UART_RECEIVE_VIOLATION the row of RX_READY = 1 (R83, R84). Every other row has none. -/
def Instr.fitsState (rxReady : Bool) : Instr → Bool
  | .uartReceive _ => !rxReady
  | .uartReceiveViolation _ => rxReady
  | .timerWrControl _ _ | .timerRdValue _ | .timerRdControl _ | .timerWrValue _ _ | .timerRdRsvd _ _
  | .timerWrRsvd _ _ _ | .uartRdTx | .uartRdRx | .uartRdSt | .uartWrTx _ | .uartWrRx _ | .uartWrSt _
  | .uartRdRsvd _ | .uartWrRsvd _ _ | .busUnmapped _ | .ramAccess _ | .romAccess _ _ | .busBadSize _
  | .busMisaligned _ | .timerTick _ | .uartCanReceive | .reset | .uartEpEvent _ | .refusedRsv _
  | .refusedKind67 _ | .refusedKind815 _ | .refusedEventArg _ => true

end Sys2Proof
end

