-- ==== Sys2Proof/Decode.lean ====
section
/-! DEFINITION. The decoder (R51 to R53, R56, R57) and, after it, the encoder, from the same tables. The decoder is total:
a key that spells no operation decodes to the row of the table that refuses it by name. -/

namespace Sys2Proof

open Machine

/-- Timer register decode, R52, of an accepted access at offset `off` of timer `n`. An offset past the register count is
handled as an invalid access (R9). -/
def decodeTimer (c : Config) (n off : Nat) (x : Xfer) : Instr :=
  match x with
  | .read =>
    if timerRsvd c off then .timerRdRsvd n off
    else if off = c.timerValueOff then .timerRdValue n
    else .timerRdControl n
  | .write d =>
    if timerRsvd c off then .timerWrRsvd n off d
    else if off = c.timerControlOff then .timerWrControl n d
    else .timerWrValue n d

/-- UART register decode, R53, of an accepted access at offset `off`; past the register count, R9. -/
def decodeUart (c : Config) (off : Nat) (x : Xfer) : Instr :=
  match x with
  | .read =>
    if uartRsvd c off then .uartRdRsvd off
    else if off = c.uartTxOff then .uartRdTx
    else if off = c.uartRxOff then .uartRdRx
    else .uartRdSt
  | .write d =>
    if uartRsvd c off then .uartWrRsvd off d
    else if off = c.uartTxOff then .uartWrTx d
    else if off = c.uartRxOff then .uartWrRx d
    else .uartWrSt d

/-- The checks on a device transaction before the register decode, in R51's order: size (R38), then alignment (R39). -/
def decodeDevice (c : Config) (x : Access) (registers : Instr) : Instr :=
  if x.size ≠ c.accessSize then .busBadSize x
  else if alignedAccess c x.addr then registers
  else .busMisaligned x

/-- Decode of a bus transaction: routing first, then the device's checks (R29 to R32, R51). -/
def decodeAccess (c : Config) (x : Access) : Instr :=
  match route c x.addr with
  | .unmapped => .busUnmapped x
  | .ram => .ramAccess x
  | .rom k => .romAccess k x
  | .timer n => decodeDevice c x (decodeTimer c n (x.addr.toNat - (timerRegion c n).lo) x.xfer)
  | .uart => decodeDevice c x (decodeUart c (x.addr.toNat - (uartRegion c).lo) x.xfer)

/-- Decode of an event key, R56. The state condition of the two RECEIVE rows selects between them (R83, R84;
notes/assumptions/14). -/
def decodeEvent (c : Config) (rxReady : Bool) (k : Key) : Instr :=
  if eventArgOk c k then
    if keyKind k = 1#4 then .timerTick (keyA k).toNat
    else if keyKind k = 2#4 then
      if rxReady then .uartReceiveViolation ((keyA k).extractLsb' 0 8)
      else .uartReceive ((keyA k).extractLsb' 0 8)
    else if keyKind k = 3#4 then .uartCanReceive
    else if keyKind k = 4#4 then .reset
    else .uartEpEvent (if (keyA k).extractLsb' 0 1 = 1#1 then .disconnect else .connect)
  else .refusedEventArg k

/-- Decode of a key with its data word, R51. `rxReady` is the flag RX_READY, on which only the choice between
UART_RECEIVE and UART_RECEIVE_VIOLATION depends. -/
def decode (c : Config) (rxReady : Bool) (k : Key) (d : Word) : Instr :=
  if keyRsv k = 1#1 then .refusedRsv k
  else if 8#4 ≤ keyKind k then .refusedKind815 k
  else if 6#4 ≤ keyKind k then .refusedKind67 k
  else if keyKind k = 0#4 then
    decodeAccess c ⟨keyA k, sizeOfSz (keySz k), xferOfW (keyW k) d⟩
  else decodeEvent c rxReady k

/-- The key and data word of a whole transaction (R47, R49). -/
def encodeAccess (x : Access) : Op :=
  ⟨mkKey 0#4 0#1 (szOfSize x.size) (wOfXfer x.xfer) x.addr, dataOfXfer x.xfer⟩

/-- The key and data word of a register access, of `ACCESS_SIZE`, at offset `off` of a region (R52, R53). -/
def encodeReg (c : Config) (r : Region) (off : Nat) (x : Xfer) : Op :=
  encodeAccess ⟨BitVec.ofNat 32 (r.lo + off), c.accessSize, x⟩

/-- The key of an event (R56). -/
def encodeEvent (kind : BitVec 4) (a : Addr) : Op := ⟨mkKey kind 0#1 0#2 0#1 a, 0#32⟩

/-- The `A[0]` of an endpoint event (R56). -/
def epEventBit : EpEvent → Addr
  | .connect => 0#32
  | .disconnect => 1#32

/-- The key and data word that spell an operation, from R47 to R49, R52, R53 and R56. -/
def encode (c : Config) : Instr → Op
  | .timerWrControl n d => encodeReg c (timerRegion c n) c.timerControlOff (.write d)
  | .timerRdValue n => encodeReg c (timerRegion c n) c.timerValueOff .read
  | .timerRdControl n => encodeReg c (timerRegion c n) c.timerControlOff .read
  | .timerWrValue n d => encodeReg c (timerRegion c n) c.timerValueOff (.write d)
  | .timerRdRsvd n off => encodeReg c (timerRegion c n) off .read
  | .timerWrRsvd n off d => encodeReg c (timerRegion c n) off (.write d)
  | .uartRdTx => encodeReg c (uartRegion c) c.uartTxOff .read
  | .uartRdRx => encodeReg c (uartRegion c) c.uartRxOff .read
  | .uartRdSt => encodeReg c (uartRegion c) c.uartStOff .read
  | .uartWrTx d => encodeReg c (uartRegion c) c.uartTxOff (.write d)
  | .uartWrRx d => encodeReg c (uartRegion c) c.uartRxOff (.write d)
  | .uartWrSt d => encodeReg c (uartRegion c) c.uartStOff (.write d)
  | .uartRdRsvd off => encodeReg c (uartRegion c) off .read
  | .uartWrRsvd off d => encodeReg c (uartRegion c) off (.write d)
  | .busUnmapped x => encodeAccess x
  | .ramAccess x => encodeAccess x
  | .romAccess _ x => encodeAccess x
  | .busBadSize x => encodeAccess x
  | .busMisaligned x => encodeAccess x
  | .timerTick n => encodeEvent 1#4 (BitVec.ofNat 32 n)
  | .uartReceive b => encodeEvent 2#4 (b.setWidth 32)
  | .uartReceiveViolation b => encodeEvent 2#4 (b.setWidth 32)
  | .uartCanReceive => encodeEvent 3#4 0#32
  | .reset => encodeEvent 4#4 0#32
  | .uartEpEvent ev => encodeEvent 5#4 (epEventBit ev)
  | .refusedRsv k => ⟨k, 0#32⟩
  | .refusedKind67 k => ⟨k, 0#32⟩
  | .refusedKind815 k => ⟨k, 0#32⟩
  | .refusedEventArg k => ⟨k, 0#32⟩

/-- The operation whose bits are `w`: the key in bits 39:0 and the data word in bits 71:40, under the default
configuration and in a state with RX_READY = 0 (notes/assumptions/26). An operation has no more than 72 bits. -/
def decodeTableWord (nbits w : Nat) : Option Instr :=
  if nbits ≤ 72 ∧ w < 2 ^ 72 then
    some (decode Config.default false (BitVec.ofNat 40 w) (BitVec.ofNat 32 (w >>> 40)))
  else none

end Sys2Proof
end

