-- ==== Sys2Proof/Machine/State.lean ====
section
/-! DEFINITION. The state of the block, R7 and the rules it names, as plain data, and the state after reset (R26). -/

namespace Sys2Proof.Machine

/-- The mode of a timer (R11). -/
inductive Mode where
  | stopped
  | running
deriving DecidableEq, Repr

/-- One timer instance: its hidden mode (R11, R25) and its countdown counter (R12). CONTROL holds no value (R14) and VALUE
is a view of `cnt` (R15). -/
structure Timer where
  mode : Mode
  cnt : Word
deriving DecidableEq, Repr

/-- The UART's registers: RX (R16), STATUS (R17) and the unobservable TX (R18). -/
structure Uart where
  rx : Word
  st : Word
  tx : Word
deriving DecidableEq, Repr

/-- The endpoint's view: whether one is bound, and the bytes handed to it, oldest first (R20). -/
structure Endpoint where
  connected : Bool
  out : List Byte
deriving DecidableEq, Repr

/-- The device of an invalid access (R21). -/
inductive Device where
  | timer (n : Nat)
  | uart
deriving DecidableEq, Repr

/-- One entry of the invalid-access log (R21). -/
structure InvalidEntry where
  device : Device
  offset : Nat
  dir : Dir
deriving DecidableEq, Repr

/-- Why an access was rejected (R22, R90). -/
inductive RejectKind where
  | badSize
  | misaligned
  | unmapped
deriving DecidableEq, Repr

/-- One entry of the rejected-access log (R22). -/
structure RejectEntry where
  addr : Addr
  size : Size
  dir : Dir
  kind : RejectKind
deriving DecidableEq, Repr

/-- The assertion of an EXPECT line: a named value, `data`, `resp` or a state field, and the value it must equal (R61). -/
inductive Expect where
  | data (v : Word)
  | resp (r : Resp)
  | answer (b : Bool)
  | timerMode (n : Nat) (m : Mode)
  | timerCnt (n : Nat) (v : Word)
  | uartRx (v : Word)
  | uartSt (v : Word)
  | connected (b : Bool)
  | out (bs : List Byte)
  | ilog (es : List InvalidEntry)
  | rlog (es : List RejectEntry)
  | perr (b : Bool)
  | entry (a : Addr)
  | cfg (c : Config)
deriving DecidableEq, Repr

/-- One line of a script, its names resolved and its TICKS expanded (R60, R61; `assemble` in Script.lean). A `fetch` line
is the bus master's instruction fetch, which R46 speaks of and no script of R60 spells (notes/assumptions/15). -/
inductive Line where
  | op (o : Op)
  | poll (addr mask value : Word) (env : List Op)
  | expect (e : Expect)
  | fetch (a : Addr) (z : Size)
deriving DecidableEq, Repr

/-- The response port: `data` and `resp` of the last bus transaction, "the script's last result" (R50, R60), and the last
answer to the endpoint's `can_receive` (R50, R82). -/
structure Port where
  data : Word
  resp : Resp
  answer : Bool
deriving DecidableEq, Repr

/-- The script and its position, which "plays the part of a program counter for the bus master" (R61). `sub` is 0 outside
the braces of a POLL, and i + 1 before the i-th environment operation inside them. -/
structure Sequencer where
  script : List Line
  line : Nat
  sub : Nat
deriving DecidableEq, Repr

/-- The state of the block: the tuple of R7, the CPU's entry-point register (R10), the response port, what the mux has
forwarded (R31), and the script (R60). -/
structure State where
  /-- R7, R3: fixed after composition, written by no operation. -/
  cfg : Config
  /-- `T[0..NUM_TIMERS-1]` (R7). -/
  timers : List Timer
  /-- `U` (R7). -/
  uart : Uart
  /-- `EP` (R7). -/
  ep : Endpoint
  /-- The invalid-access log, oldest first (R21). -/
  ilog : List InvalidEntry
  /-- The rejected-access log, oldest first (R22). -/
  rlog : List RejectEntry
  /-- The protocol-violation flag (R23). -/
  perr : Bool
  /-- The CPU's entry-point register (R10, R111). -/
  entry : Addr
  /-- The last responses (R50). -/
  port : Port
  /-- What the mux has handed to RAM and the flashes, oldest first (R31): the model's own record. -/
  fwd : List Forward
  /-- The index of the next free value: the model's own counter (notes/assumptions/6). -/
  draw : Nat
  /-- The operations still to be performed (R60). -/
  seq : Sequencer
deriving DecidableEq, Repr

/-- Why a run stops with a fault. The block itself has no trap and no operation that stops it (R98, R103). -/
inductive Fault where
  /-- Raised by an EXPECT line whose assertion fails: "a script whose assertion fails is a failed test" (R61). Safe: the
  run is outside every claim (notes/assumptions/20). -/
  | expectFailed (line : Nat)
deriving DecidableEq, Repr

/-- Why an operation is given no step. -/
inductive Refusal where
  /-- Raised by an arm of `exec` whose operation has no meaning yet; no arm is left. Safe. -/
  | notModelled (mnemonic : String)
  /-- Raised by REFUSED_RSV: a key with RSV = 1 "spells no operation: the model refuses it" (R57). Safe. -/
  | reservedBit (k : Key)
  /-- Raised by REFUSED_KIND_6_7: KIND 6 and 7 are reserved (R48, R57). Safe. -/
  | reservedKind67 (k : Key)
  /-- Raised by REFUSED_KIND_8_15: KIND 8 to 15 are reserved (R48, R57). Safe. -/
  | reservedKind815 (k : Key)
  /-- Raised by REFUSED_EVENT_ARG: an event key that breaks R56 (R57). Safe. -/
  | eventArgument (k : Key)
  /-- Raised by a delivery when no endpoint is bound: "a model gives the endpoint no RECEIVE step when EP.connected is
  false" (R88). Safe. -/
  | noEndpoint (b : Byte)
  /-- Raised by an instruction fetch from a timer or UART window (R46). Safe. -/
  | fetchFromDevice (a : Addr)
  /-- Raised by an operation on a timer instance that does not exist; no decoded operation is one when the state holds
  NUM_TIMERS instances (R56; notes/assumptions/16). Safe. -/
  | noSuchTimer (n : Nat)
deriving DecidableEq, Repr

/-- A timer after reset: STOPPED, count 0 (R26, R70, D12). -/
def Timer.reset : Timer := ⟨.stopped, 0#32⟩

/-- The UART after reset: "clears all registers", "then sets TX_READY (never RX_READY)" (R26, R86). With
TX_READY at bit 1, STATUS is 0x00000002. -/
def Uart.reset (c : Config) : Uart := ⟨0x00000000#32, BitVec.twoPow 32 c.txReadyBit, 0x00000000#32⟩

/-- The response port before any transaction. DESIGN CHOICE: the spec gives no values (notes/assumptions/8); unsafe. -/
def Port.reset : Port := ⟨0#32, .ok, false⟩

/-- The state after composition of a machine with configuration `c` (R26): every row of R26's table. DESIGN CHOICE for the
fields that are the model's own: `port`, `fwd`, `draw` (notes/assumptions/8) and the empty script (notes/assumptions/2). -/
def State.ofConfig (c : Config) : State where
  cfg := c
  timers := List.replicate c.numTimers Timer.reset
  uart := Uart.reset c
  ep := ⟨c.endpointConnected, []⟩
  ilog := []
  rlog := []
  perr := false
  entry := c.startAddr.getD 0#32
  port := Port.reset
  fwd := []
  draw := 0
  seq := ⟨[], 0, 0⟩

/-- The machine right after reset (R26), under the default configuration (notes/assumptions/4 and 5). -/
def State.reset : State := State.ofConfig Config.default

end Sys2Proof.Machine
end

