-- ==== Sys2Proof/Machine/Flags.lean ====
section
/-! DEFINITION. The three flags of R24: RX_READY, TX_READY and RUNNING, each read, set and cleared in one place. -/

namespace Sys2Proof.Machine

/-- The word with one STATUS bit set (R17). -/
def statusBit (b : Fin 32) : Word := BitVec.twoPow 32 b

/-- RX_READY, `U.st[0]`: "there is an unread received byte" (R17, R24). -/
def rxReady (c : Config) (u : Uart) : Bool := u.st.getLsbD c.rxReadyBit

/-- TX_READY, `U.st[1]`: the channel accepts a byte to send (R17, R24). -/
def txReady (c : Config) (u : Uart) : Bool := u.st.getLsbD c.txReadyBit

/-- `U.st[0] <- 1` (R83). -/
def setRxReady (c : Config) (u : Uart) : Uart := { u with st := u.st ||| statusBit c.rxReadyBit }

/-- `U.st[0] <- 0` (R75). -/
def clearRxReady (c : Config) (u : Uart) : Uart := { u with st := u.st &&& ~~~statusBit c.rxReadyBit }

/-- `U.st[1] <- 1` (R86). -/
def setTxReady (c : Config) (u : Uart) : Uart := { u with st := u.st ||| statusBit c.txReadyBit }

/-- RUNNING, `T[n].mode = RUNNING` (R24). -/
def isRunning (t : Timer) : Bool := decide (t.mode = .running)

end Sys2Proof.Machine
end

