-- ==== Sys2Proof/Machine/Operands.lean ====
section
/-! DEFINITION. How write data is used (R54) and how read data is assembled (R55). -/

namespace Sys2Proof.Machine

/-- The byte a TX write sends: `D[7:0]`, "the low byte of value" (R54, R77). -/
def txByte (d : Word) : Byte := d.extractLsb' 0 8

/-- The RX register for a delivered byte: `zext_32(b)` (R55, R83). -/
def rxWord (b : Byte) : Word := b.setWidth 32

/-- The data of a VALUE read: `cnt & VALUE_MASK`, "regardless of internal counter width" (R15, R55, R64). -/
def valueData (c : Config) (t : Timer) : Word := t.cnt &&& c.valueMask

/-- The data of every invalid and every rejected read (R55, R91, R92). -/
def zeroData : Word := 0x00000000#32

end Sys2Proof.Machine
end

