-- ==== Sys2Proof/Machine/Ops.lean ====
section
/-! DEFINITION. The shared operations: responses, the two logs, the two errors of R5 (`raise BusError` and
`raise ProtocolViolation`, all this block has of exceptions: R98 gives it no trap, no saved state and no return), the
forwarding port, the endpoint, and the timers. -/

namespace Sys2Proof.Machine

/-- A read ends with its data and `resp = OK` (R50). -/
def State.readOk (s : State) (d : Word) : State := { s with port := { s.port with data := d, resp := .ok } }

/-- A write ends with `resp = OK`; a write's response carries no data (R50; notes/assumptions/9). -/
def State.writeOk (s : State) : State := { s with port := { s.port with resp := .ok } }

/-- A transaction ends with a response and, a read, with data (R50). -/
def State.respond (s : State) (x : Xfer) (d : Word) (r : Resp) : State :=
  match x with
  | .read => { s with port := { s.port with data := d, resp := r } }
  | .write _ => { s with port := { s.port with resp := r } }

/-- `LogInvalid(dev, off, dir)`: append an entry to the invalid-access log (R5, R21). -/
def State.logInvalid (s : State) (dev : Device) (off : Nat) (dir : Dir) : State :=
  { s with ilog := s.ilog ++ [⟨dev, off, dir⟩] }

/-- An invalid read: logged, data 0, OK (R91). -/
def State.invalidRead (s : State) (dev : Device) (off : Nat) : State := (s.logInvalid dev off .read).readOk zeroData

/-- An invalid write: logged, ignored, OK (R91). -/
def State.invalidWrite (s : State) (dev : Device) (off : Nat) : State := (s.logInvalid dev off .write).writeOk

/-- `raise BusError(kind)`: the access ends with `resp = ERROR`, a read with data 0, and an entry in the rejected-access
log; nothing else changes (R5, R92). -/
def State.busError (s : State) (kind : RejectKind) (x : Access) : State :=
  State.respond { s with rlog := s.rlog ++ [⟨x.addr, x.size, dirOfXfer x.xfer, kind⟩] } x.xfer zeroData .error

/-- `raise ProtocolViolation(b)`: the delivery of `b` is rejected and `perr` becomes true, for good (R84, R93). -/
def State.protocolViolation (s : State) (_b : Byte) : State := { s with perr := true }

/-- The mux hands a transaction on, unchanged; "its result (data and response) is the target's", a free value (R31). -/
def State.forward (s : State) (target : MemTarget) (x : Access) : State :=
  let history := s.fwd ++ [⟨target, x⟩]
  State.respond { s with fwd := history, draw := s.draw + 1 } x.xfer
    (Config.targetData history s.draw) (Config.targetResp history s.draw)

/-- `Emit(b)`: append `b` to `EP.out` if an endpoint is connected, otherwise do nothing (R88). -/
def Endpoint.emit (e : Endpoint) (b : Byte) : Endpoint :=
  if e.connected then { e with out := e.out ++ [b] } else e

/-- A TX write: the low byte goes to the endpoint (R77). What TX itself then holds is unobservable (R18): a free value. -/
def State.transmit (s : State) (d : Word) : State :=
  { s with
    ep := s.ep.emit (txByte d)
    uart := { s.uart with tx := Config.txAfterWrite d s.draw }
    draw := s.draw + 1 }

/-- An RX read: RX_READY is cleared and the data is `U.rx` (R75). -/
def State.consumeRx (s : State) : State := { s with uart := clearRxReady s.cfg s.uart }.readOk s.uart.rx

/-- The delivery of a byte while RX_READY is 0: RX holds it and RX_READY is set (R83). -/
def State.acceptByte (s : State) (b : Byte) : State := { s with uart := setRxReady s.cfg { s.uart with rx := rxWord b } }

/-- A delivery: with no endpoint there is none (R88); while RX_READY is 1 it is a protocol violation (R84); otherwise the
byte is accepted (R83). "the state decides which rule applies" (R84; notes/assumptions/13). -/
def deliver (b : Byte) (s : State) : Host.Outcome State Fault Refusal :=
  if s.ep.connected then
    if rxReady s.cfg s.uart then .next (s.protocolViolation b) else .next (s.acceptByte b)
  else .refused (.noEndpoint b)

/-- `T[n] <- t` (R5). -/
def State.setTimer (s : State) (n : Nat) (t : Timer) : State := { s with timers := s.timers.set n t }

/-- Continue with the state of timer `n` (R5), if the instance exists (notes/assumptions/16). -/
def withTimer (n : Nat) (s : State) (k : Timer → Host.Outcome State Fault Refusal) :
    Host.Outcome State Fault Refusal :=
  match s.timers[n]? with
  | some t => k t
  | none => .refused (.noSuchTimer n)

/-- A timer started or restarted: a full reload, RUNNING (R63). -/
def startedTimer (c : Config) : Timer := ⟨.running, c.timerLimit⟩

/-- The counter one tick on, for a running timer (R69): with `ZERO_VISIBLE = false` reaching zero reloads at once, with
`ZERO_VISIBLE = true` zero is held for one tick (D11). -/
def nextCount (c : Config) (cnt : Word) : Word :=
  if c.zeroVisible then
    if cnt = 0#32 then c.timerLimit else cnt - 1#32
  else
    if cnt ≤ 1#32 then c.timerLimit else cnt - 1#32

/-- A timer one tick on (R69): a stopped timer does not count. -/
def tickTimer (c : Config) (t : Timer) : Timer :=
  if isRunning t then { t with cnt := nextCount c t.cnt } else t

/-- TIMER_RESET, R70, of one instance. -/
def resetTimer (_t : Timer) : Timer := Timer.reset

/-- UART_RESET, R86: clear all registers, then set TX_READY. -/
def resetUart (c : Config) (_u : Uart) : Uart := setTxReady c ⟨0#32, 0#32, 0#32⟩

/-- The RESET event: R70 on every timer and R86 on the UART, and nothing else (R112). -/
def State.resetBlock (s : State) : State :=
  { s with timers := s.timers.map resetTimer, uart := resetUart s.cfg s.uart }

/-- The bus master's instruction fetch of `z` bytes at `a` (R27, R46): refused from a device window; forwarded to RAM or a
present ROM (R31); rejected where nothing answers (R32) (notes/assumptions/15). -/
def fetch (a : Addr) (z : Size) (s : State) : Host.Outcome State Fault Refusal :=
  match route s.cfg a with
  | .timer _ => .refused (.fetchFromDevice a)
  | .uart => .refused (.fetchFromDevice a)
  | .ram => .next (s.forward .ram ⟨a, z, .read⟩)
  | .rom k => .next (s.forward (.rom k) ⟨a, z, .read⟩)
  | .unmapped => .next (s.busError .unmapped ⟨a, z, .read⟩)

end Sys2Proof.Machine
end

