-- ==== Sys2Proof/Machine/MuxOps.lean ====
section
/-! DEFINITION. The operations the mux decides by itself (R31, R32, R38, R39), RESET (R112), and the keys that spell no
operation (R56, R57). -/

namespace Sys2Proof.Machine

/-- BUS_UNMAPPED, R32: `raise BusError(UNMAPPED)`. -/
def execBusUnmapped (x : Access) (s : State) : Host.Outcome State Fault Refusal := .next (s.busError .unmapped x)

/-- RAM_ACCESS, R31: forwarded unchanged, with no size or alignment check. -/
def execRamAccess (x : Access) (s : State) : Host.Outcome State Fault Refusal := .next (s.forward .ram x)

/-- ROM_ACCESS, R31: forwarded unchanged to the flash of slot `k`. -/
def execRomAccess (k : Slot) (x : Access) (s : State) : Host.Outcome State Fault Refusal :=
  .next (s.forward (.rom k) x)

/-- BUS_BAD_SIZE, R38: `raise BusError(BAD_SIZE)`. -/
def execBusBadSize (x : Access) (s : State) : Host.Outcome State Fault Refusal := .next (s.busError .badSize x)

/-- BUS_MISALIGNED, R39: `raise BusError(MISALIGNED)`. -/
def execBusMisaligned (x : Access) (s : State) : Host.Outcome State Fault Refusal := .next (s.busError .misaligned x)

/-- RESET, R112. -/
def execReset (s : State) : Host.Outcome State Fault Refusal := .next s.resetBlock

/-- REFUSED_RSV, R57: "the model refuses it (no step, a named refusal)". -/
def execRefusedRsv (k : Key) (_s : State) : Host.Outcome State Fault Refusal := .refused (.reservedBit k)

/-- REFUSED_KIND_6_7, R57. -/
def execRefusedKind67 (k : Key) (_s : State) : Host.Outcome State Fault Refusal := .refused (.reservedKind67 k)

/-- REFUSED_KIND_8_15, R57. -/
def execRefusedKind815 (k : Key) (_s : State) : Host.Outcome State Fault Refusal := .refused (.reservedKind815 k)

/-- REFUSED_EVENT_ARG, R56, R57. -/
def execRefusedEventArg (k : Key) (_s : State) : Host.Outcome State Fault Refusal := .refused (.eventArgument k)

end Sys2Proof.Machine
end

