-- ==== Sys2Proof/Machine/TimerOps.lean ====
section
/-! DEFINITION. The operations of the timers, R63 to R69. -/

namespace Sys2Proof.Machine

/-- TIMER_WR_CONTROL, R63: start or restart timer `n`, whatever the value written. -/
def execTimerWrControl (n : Nat) (_d : Word) (s : State) : Host.Outcome State Fault Refusal :=
  withTimer n s fun _ => .next (s.setTimer n (startedTimer s.cfg)).writeOk

/-- TIMER_RD_VALUE, R64: the count, masked; no side effect. -/
def execTimerRdValue (n : Nat) (s : State) : Host.Outcome State Fault Refusal :=
  withTimer n s fun t => .next (s.readOk (valueData s.cfg t))

/-- TIMER_RD_CONTROL, R65: an invalid access. -/
def execTimerRdControl (n : Nat) (s : State) : Host.Outcome State Fault Refusal :=
  .next (s.invalidRead (.timer n) s.cfg.timerControlOff)

/-- TIMER_WR_VALUE, R66: an invalid access; the count cannot be preset. -/
def execTimerWrValue (n : Nat) (_d : Word) (s : State) : Host.Outcome State Fault Refusal :=
  .next (s.invalidWrite (.timer n) s.cfg.timerValueOff)

/-- TIMER_RD_RSVD, R67: an invalid access. -/
def execTimerRdRsvd (n off : Nat) (s : State) : Host.Outcome State Fault Refusal :=
  .next (s.invalidRead (.timer n) off)

/-- TIMER_WR_RSVD, R68: an invalid access; nothing is stored at the offset. -/
def execTimerWrRsvd (n off : Nat) (_d : Word) (s : State) : Host.Outcome State Fault Refusal :=
  .next (s.invalidWrite (.timer n) off)

/-- TIMER_TICK, R69: one tick of timer `n`'s clock. -/
def execTimerTick (n : Nat) (s : State) : Host.Outcome State Fault Refusal :=
  withTimer n s fun t => .next (s.setTimer n (tickTimer s.cfg t))

end Sys2Proof.Machine
end

