-- ==== Sys2Proof/Machine/UartOps.lean ====
section
/-! DEFINITION. The operations of the UART, R74 to R85: bus accesses, then the endpoint's operations. -/

namespace Sys2Proof.Machine

/-- UART_RD_TX, R74: an invalid access. -/
def execUartRdTx (s : State) : Host.Outcome State Fault Refusal := .next (s.invalidRead .uart s.cfg.uartTxOff)

/-- UART_RD_RX, R75: return the received byte and consume it. -/
def execUartRdRx (s : State) : Host.Outcome State Fault Refusal := .next s.consumeRx

/-- UART_RD_ST, R76: the status bits; no side effect. -/
def execUartRdSt (s : State) : Host.Outcome State Fault Refusal := .next (s.readOk s.uart.st)

/-- UART_WR_TX, R77: transmit one byte. -/
def execUartWrTx (d : Word) (s : State) : Host.Outcome State Fault Refusal := .next (s.transmit d).writeOk

/-- UART_WR_RX, R78: an invalid access. -/
def execUartWrRx (_d : Word) (s : State) : Host.Outcome State Fault Refusal :=
  .next (s.invalidWrite .uart s.cfg.uartRxOff)

/-- UART_WR_ST, R79: accepted and ignored; not an invalid access. -/
def execUartWrSt (_d : Word) (s : State) : Host.Outcome State Fault Refusal := .next s.writeOk

/-- UART_RD_RSVD, R80: an invalid access. -/
def execUartRdRsvd (off : Nat) (s : State) : Host.Outcome State Fault Refusal := .next (s.invalidRead .uart off)

/-- UART_WR_RSVD, R81: an invalid access. -/
def execUartWrRsvd (off : Nat) (_d : Word) (s : State) : Host.Outcome State Fault Refusal :=
  .next (s.invalidWrite .uart off)

/-- UART_CAN_RECEIVE, R82: the answer is `U.st[0] = 0`. -/
def execUartCanReceive (s : State) : Host.Outcome State Fault Refusal :=
  .next { s with port := { s.port with answer := !rxReady s.cfg s.uart } }

/-- UART_RECEIVE, R83: the endpoint delivers one byte; "if U.st[0] = 1, rule R84 applies instead". -/
def execUartReceive (b : Byte) (s : State) : Host.Outcome State Fault Refusal := deliver b s

/-- UART_RECEIVE_VIOLATION, R84: the same key; "the state decides which rule applies". -/
def execUartReceiveViolation (b : Byte) (s : State) : Host.Outcome State Fault Refusal := deliver b s

/-- UART_EP_EVENT, R85: "connect/disconnect — no-op in this model". -/
def execUartEpEvent (_ev : EpEvent) (s : State) : Host.Outcome State Fault Refusal := .next s

end Sys2Proof.Machine
end

