-- ==== Sys2Proof/Machine/Dispatch.lean ====
section
/-! DEFINITION. The dispatch: one arm per operation, each one call of its meaning. -/

namespace Sys2Proof.Machine

/-- The meaning of an operation in a state: one atomic step (R6, R43). -/
def exec (i : Instr) (s : State) : Host.Outcome State Fault Refusal :=
  match i with
  | .timerWrControl n d => Sys2Proof.Machine.execTimerWrControl n d s
  | .timerRdValue n => Sys2Proof.Machine.execTimerRdValue n s
  | .timerRdControl n => Sys2Proof.Machine.execTimerRdControl n s
  | .timerWrValue n d => Sys2Proof.Machine.execTimerWrValue n d s
  | .timerRdRsvd n off => Sys2Proof.Machine.execTimerRdRsvd n off s
  | .timerWrRsvd n off d => Sys2Proof.Machine.execTimerWrRsvd n off d s
  | .uartRdTx => Sys2Proof.Machine.execUartRdTx s
  | .uartRdRx => Sys2Proof.Machine.execUartRdRx s
  | .uartRdSt => Sys2Proof.Machine.execUartRdSt s
  | .uartWrTx d => Sys2Proof.Machine.execUartWrTx d s
  | .uartWrRx d => Sys2Proof.Machine.execUartWrRx d s
  | .uartWrSt d => Sys2Proof.Machine.execUartWrSt d s
  | .uartRdRsvd off => Sys2Proof.Machine.execUartRdRsvd off s
  | .uartWrRsvd off d => Sys2Proof.Machine.execUartWrRsvd off d s
  | .busUnmapped x => Sys2Proof.Machine.execBusUnmapped x s
  | .ramAccess x => Sys2Proof.Machine.execRamAccess x s
  | .romAccess k x => Sys2Proof.Machine.execRomAccess k x s
  | .busBadSize x => Sys2Proof.Machine.execBusBadSize x s
  | .busMisaligned x => Sys2Proof.Machine.execBusMisaligned x s
  | .timerTick n => Sys2Proof.Machine.execTimerTick n s
  | .uartReceive b => Sys2Proof.Machine.execUartReceive b s
  | .uartReceiveViolation b => Sys2Proof.Machine.execUartReceiveViolation b s
  | .uartCanReceive => Sys2Proof.Machine.execUartCanReceive s
  | .reset => Sys2Proof.Machine.execReset s
  | .uartEpEvent ev => Sys2Proof.Machine.execUartEpEvent ev s
  | .refusedRsv k => Sys2Proof.Machine.execRefusedRsv k s
  | .refusedKind67 k => Sys2Proof.Machine.execRefusedKind67 k s
  | .refusedKind815 k => Sys2Proof.Machine.execRefusedKind815 k s
  | .refusedEventArg k => Sys2Proof.Machine.execRefusedEventArg k s

end Sys2Proof.Machine
end

