-- ==== Sys2Proof/Machine/Script.lean ====
section
/-! DEFINITION. Scripts: the symbolic names (R62), the source lines and their expansion (R60, R61), and what one line of a
script does. The concrete characters of a script are notation (D22; notes/assumptions/22). -/

namespace Sys2Proof.Machine

/-- The symbolic register names of R62. -/
inductive RegName where
  | timerControl (n : Nat)
  | timerValue (n : Nat)
  | uartTx
  | uartRx
  | uartSt
deriving DecidableEq, Repr

/-- An operand of a script line: a number, a register's name (R62), or a name given by `.equ` (R61). Which places of a line
are operands is the model's choice (DESIGN CHOICE: notes/assumptions/29). -/
inductive Operand where
  | num (v : Nat)
  | reg (r : RegName)
  | name (x : String)
deriving DecidableEq, Repr

/-- The lines of the environment: `TICK`, `RECV`, `CANRX`, `EPEV` (R60) and `TICKS` (R61). -/
inductive EnvLine where
  | tick (n : Operand)
  | recv (b : Operand)
  | canrx
  | epev (ev : EpEvent)
  | ticks (n k : Operand)
deriving DecidableEq, Repr

/-- The device of an invalid-log entry as an EXPECT writes it: `TIMER(n)` or `UART` (R21). -/
inductive DeviceName where
  | timer (n : Operand)
  | uart
deriving DecidableEq, Repr

/-- What an EXPECT line asserts, as it is written: the named value `x`, "`data`, `resp`, a state field" (R61), a field for
each component of R7 and R10, and the value it must equal, its numbers operands but for these. DESIGN CHOICE: the size of an
`rlog` entry is one of the four sizes (R22, R37), so no name stands for it, and the parameters of a `cfg` are values, not
operands; R61 is silent (notes/assumptions/29). -/
inductive Assertion where
  | data (v : Operand)
  | resp (r : Resp)
  | answer (b : Bool)
  | timerMode (n : Operand) (m : Mode)
  | timerCnt (n v : Operand)
  | uartRx (v : Operand)
  | uartSt (v : Operand)
  | connected (b : Bool)
  | out (bs : List Operand)
  | ilog (es : List (DeviceName × Operand × Dir))
  | rlog (es : List (Operand × Size × Dir × RejectKind))
  | perr (b : Bool)
  | entry (a : Operand)
  | cfg (c : Config)
deriving DecidableEq, Repr

/-- A source line of a script (R60, R61). `read z a` is R8, R16, R32 or R64; `write z a d` is W8, W16, W32 or W64. DESIGN
CHOICE: the `v` of `.equ NAME, v` is a number, neither a register's name (R62) nor a name given earlier; R61 is silent
(notes/assumptions/29). -/
inductive SourceLine where
  | read (z : Size) (a : Operand)
  | write (z : Size) (a d : Operand)
  | env (e : EnvLine)
  | reset
  | poll (a mask value : Operand) (env : List EnvLine)
  | expect (e : Assertion)
  | equ (x : String) (v : Nat)
  | comment (text : String)
  | label (x : String)
deriving DecidableEq, Repr

/-- An address, if it exists (R27; "addresses at or above 2^32 have no key", D2). -/
def existing (c : Config) (a : Nat) : Option Nat := if addrExists c a then some a else none

/-- The address of a symbolic name; `Tn` is a name only "for 0 <= n < NUM_TIMERS" (R62). -/
def regAddr (c : Config) : RegName → Option Nat
  | .timerControl n => if n < c.numTimers then existing c ((timerRegion c n).lo + c.timerControlOff) else none
  | .timerValue n => if n < c.numTimers then existing c ((timerRegion c n).lo + c.timerValueOff) else none
  | .uartTx => existing c ((uartRegion c).lo + c.uartTxOff)
  | .uartRx => existing c ((uartRegion c).lo + c.uartRxOff)
  | .uartSt => existing c ((uartRegion c).lo + c.uartStOff)

/-- The value of an operand under the constants named so far; a name that stands for nothing has none. -/
def operandValue (c : Config) (names : List (String × Nat)) : Operand → Option Nat
  | .num v => some v
  | .reg r => regAddr c r
  | .name x => names.lookup x

/-- The value of an operand as a word of `w` bits, if it has room there (notes/assumptions/22). -/
def operandBits (w : Nat) (c : Config) (names : List (String × Nat)) (o : Operand) : Option (BitVec w) :=
  (operandValue c names o).bind fun v => if v < 2 ^ w then some (BitVec.ofNat w v) else none

/-- The values of a list, if every one has a value. -/
def allSome {α : Type} : List (Option α) → Option (List α)
  | [] => some []
  | x :: xs => x.bind fun v => (allSome xs).map (v :: ·)

/-- The operation of a bus line (R60). -/
def busOp (a : Addr) (z : Size) (x : Xfer) : Op := encodeAccess ⟨a, z, x⟩

/-- The operations of an environment line; `TICKS n, k` is `k` lines `TICK n` (R60, R61). -/
def envOps (c : Config) (names : List (String × Nat)) : EnvLine → Option (List Op)
  | .tick n => (operandBits 32 c names n).map fun v => [encodeEvent 1#4 v]
  | .recv b => (operandBits 32 c names b).map fun v => [encodeEvent 2#4 v]
  | .canrx => some [encodeEvent 3#4 0#32]
  | .epev ev => some [encodeEvent 5#4 (epEventBit ev)]
  | .ticks n k => do
    let v ← operandBits 32 c names n
    let count ← operandValue c names k
    return List.replicate count (encodeEvent 1#4 v)

/-- The operations of the environment lines inside the braces of a POLL, in their written order (R61). -/
def envAll (c : Config) (names : List (String × Nat)) (es : List EnvLine) : Option (List Op) :=
  (allSome (es.map (envOps c names))).map List.flatten

/-- The device an invalid-log entry of an EXPECT names. -/
def deviceOf (c : Config) (names : List (String × Nat)) : DeviceName → Option Device
  | .timer n => (operandValue c names n).map Device.timer
  | .uart => some .uart

/-- The entry of `ilog` that an EXPECT writes (R21). -/
def invalidEntryOf (c : Config) (names : List (String × Nat)) (e : DeviceName × Operand × Dir) : Option InvalidEntry := do
  let dev ← deviceOf c names e.1
  let off ← operandValue c names e.2.1
  return ⟨dev, off, e.2.2⟩

/-- The entry of `rlog` that an EXPECT writes (R22). -/
def rejectEntryOf (c : Config) (names : List (String × Nat)) (e : Operand × Size × Dir × RejectKind) :
    Option RejectEntry := do
  let a ← operandBits 32 c names e.1
  return ⟨a, e.2.1, e.2.2.1, e.2.2.2⟩

/-- The assertion of an EXPECT line, its operands resolved (R61). -/
def expectOf (c : Config) (names : List (String × Nat)) : Assertion → Option Expect
  | .data v => (operandBits 32 c names v).map .data
  | .resp r => some (.resp r)
  | .answer b => some (.answer b)
  | .timerMode n m => (operandValue c names n).map (.timerMode · m)
  | .timerCnt n v => do
    let n ← operandValue c names n
    let v ← operandBits 32 c names v
    return .timerCnt n v
  | .uartRx v => (operandBits 32 c names v).map .uartRx
  | .uartSt v => (operandBits 32 c names v).map .uartSt
  | .connected b => some (.connected b)
  | .out bs => (allSome (bs.map (operandBits 8 c names))).map .out
  | .ilog es => (allSome (es.map (invalidEntryOf c names))).map .ilog
  | .rlog es => (allSome (es.map (rejectEntryOf c names))).map .rlog
  | .perr b => some (.perr b)
  | .entry a => (operandBits 32 c names a).map .entry
  | .cfg d => some (.cfg d)

/-- The lines a source line expands to (R60, R61); a comment, a label and `.equ` are no line of their own. -/
def linesOf (c : Config) (names : List (String × Nat)) : SourceLine → Option (List Line)
  | .read z a => do
    let a ← operandBits 32 c names a
    return [.op (busOp a z .read)]
  | .write z a d => do
    let a ← operandBits 32 c names a
    let d ← operandBits 32 c names d
    return [.op (busOp a z (.write d))]
  | .env e => do
    let ops ← envOps c names e
    return ops.map .op
  | .reset => some [.op (encodeEvent 4#4 0#32)]
  | .poll a m v env => do
    let a ← operandBits 32 c names a
    let m ← operandBits 32 c names m
    let v ← operandBits 32 c names v
    let ops ← envAll c names env
    return [.poll a m v ops]
  | .expect e => (expectOf c names e).map fun x => [.expect x]
  | .equ _ _ => some []
  | .comment _ => some []
  | .label _ => some []

/-- The constants named after a source line: `.equ NAME, v` names one (R61), for the lines below it. DESIGN CHOICE: a name
given twice stands for the value given last above the line that uses it; R61 is silent on it (notes/assumptions/28). -/
def namesAfter (names : List (String × Nat)) : SourceLine → List (String × Nat)
  | .equ x v => (x, v) :: names
  | _ => names

/-- The lines of a whole script (R60, R61). -/
def assemble (c : Config) : List (String × Nat) → List SourceLine → Option (List Line)
  | _, [] => some []
  | names, l :: ls => do
    let first ← linesOf c names l
    let rest ← assemble c (namesAfter names l) ls
    return first ++ rest

/-- The assertion of an EXPECT line holds in the state (R61). -/
def Expect.holds (s : State) : Expect → Bool
  | .data v => decide (s.port.data = v)
  | .resp r => decide (s.port.resp = r)
  | .answer b => decide (s.port.answer = b)
  | .timerMode n m => decide (s.timers[n]?.map Timer.mode = some m)
  | .timerCnt n v => decide (s.timers[n]?.map Timer.cnt = some v)
  | .uartRx v => decide (s.uart.rx = v)
  | .uartSt v => decide (s.uart.st = v)
  | .connected b => decide (s.ep.connected = b)
  | .out bs => decide (s.ep.out = bs)
  | .ilog es => decide (s.ilog = es)
  | .rlog es => decide (s.rlog = es)
  | .perr b => decide (s.perr = b)
  | .entry a => decide (s.entry = a)
  | .cfg c => decide (s.cfg = c)

/-- Move the script's position (R61). -/
def State.goto (s : State) (line sub : Nat) : State := { s with seq := ⟨s.seq.script, line, sub⟩ }

/-- Move to the next line. -/
def State.advance (s : State) : State := s.goto (s.seq.line + 1) 0

/-- What an operation decodes to in a state (R51): under its configuration, and its RX_READY. -/
def decodeIn (s : State) (o : Op) : Instr := decode s.cfg (rxReady s.cfg s.uart) o.key o.data

/-- Perform one operation: decode it in the state and run it, one atomic step (R6, R43). -/
def perform (o : Op) (s : State) : Host.Outcome State Fault Refusal := exec (decodeIn s o) s

/-- Perform operations one after the other, in the total order of R43, up to the first that is refused. -/
def performAll : List Op → State → Host.Outcome State Fault Refusal
  | [], s => .next s
  | o :: os, s =>
    match perform o s with
    | .next t => performAll os t
    | .fault r => .fault r
    | .refused r => .refused r

/-- The meanings of operations, one after the other (R43). -/
def execAll : List Instr → State → Host.Outcome State Fault Refusal
  | [], s => .next s
  | i :: is, s =>
    match exec i s with
    | .next t => execAll is t
    | .fault r => .fault r
    | .refused r => .refused r

/-- The position inside a POLL once `i` of its environment operations are done: the next one, or, after the last, the
POLL's read again ("its target is its own first read", R61). -/
def pollSub (env : List Op) (i : Nat) : Nat := if i < env.length then i + 1 else 0

/-- One step of a POLL (R61): at its read, perform it and test `(data & m) = v`, leaving the line if it holds; inside the
braces, perform the next environment operation (notes/assumptions/21). -/
def runPoll (addr mask value : Word) (env : List Op) (s : State) : Host.Outcome State Fault Refusal :=
  match s.seq.sub with
  | 0 =>
    match perform (busOp addr .b4 .read) s with
    | .next t =>
      if t.port.data &&& mask = value then .next t.advance
      else .next (t.goto t.seq.line (pollSub env 0))
    | .fault r => .fault r
    | .refused r => .refused r
  | i + 1 =>
    match env[i]? with
    | some o => perform o (s.goto s.seq.line (pollSub env (i + 1)))
    | none => .next (s.goto s.seq.line 0)

/-- One line of a script (R60, R61). -/
def runLine (l : Line) (s : State) : Host.Outcome State Fault Refusal :=
  match l with
  | .op o => perform o s.advance
  | .poll a m v env => runPoll a m v env s
  | .expect e => if e.holds s then .next s.advance else .fault (.expectFailed s.seq.line)
  | .fetch a z => fetch a z s.advance

/-- The line at the script's position: where the next operation is fetched. -/
def currentLine (s : State) : Option Line := s.seq.script[s.seq.line]?

/-- One step of the machine: the line at the script's position; with none, no operation is presented and the block does
nothing (notes/assumptions/1). -/
def stepLine (s : State) : Host.Outcome State Fault Refusal :=
  match currentLine s with
  | some l => runLine l s
  | none => .next s

/-- The script of one operation, at its first line (notes/assumptions/2). -/
def State.withOp (s : State) (o : Op) : State := { s with seq := ⟨[.op o], 0, 0⟩ }

end Sys2Proof.Machine
end

