-- ==== Sys2Proof/Machine/Step.lean ====
section
/-! DEFINITION. The step of the machine, and the presentation of one operation to it. -/

namespace Sys2Proof.Machine

/-- One step: one operation of one agent, atomic (R6), the next in the one total order of R43. -/
def step (s : State) : Host.Outcome State Fault Refusal := stepLine s

/-- The state in which the operation whose key is bits 39:0 of `w` and whose data word is bits 71:40 is the next one the
step performs (notes/assumptions/2 and 26). -/
def State.withFetchWord (s : State) (_nbits w : Nat) : State :=
  s.withOp ⟨BitVec.ofNat 40 w, BitVec.ofNat 32 (w >>> 40)⟩

end Sys2Proof.Machine
end

