-- ==== Sys2Proof/Machine/Compose.lean ====
section
/-! DEFINITION. Composition, the block's power-on reset: `create_board` and `create_soc` (R104 to R111). -/

namespace Sys2Proof.Machine

/-- A fatal configuration error: no machine exists (R90, R94). -/
inductive Fatal where
  /-- The configuration breaks R4 (D24). -/
  | illegalConfiguration
  /-- The CPU core cannot be instantiated (R105). -/
  | cpuUnavailable
  /-- The image file of slot `k` is missing (R109). -/
  | imageMissing (k : Slot)
  /-- The image of slot `k` is larger than its flash (R109, R110). -/
  | imageTooLarge (k : Slot)
deriving DecidableEq, Repr

/-- What composition meets outside the configuration: whether the CPU model exists (R105), and the size in bytes of the
image file of a name, if there is such a file (R109). It is no state of the block. -/
structure Surroundings where
  cpuAvailable : Bool
  imageSize : String → Option Nat

/-- A board under construction: the state, the regions mapped so far, and the bytes loaded into each flash. -/
structure Board where
  state : State
  regions : List Region
  loaded : List (Slot × Nat)
deriving DecidableEq, Repr

/-- `create_soc()` steps 2 and 3: the timers and the UART, mapped, in their reset states (R106, R107). The entry point is
not set yet. -/
def createPeripherals (c : Config) : Board where
  state := { State.ofConfig c with entry := 0#32 }
  regions := timerRegions c ++ [uartRegion c]
  loaded := []

/-- `create_soc()`: step 1 fails fatally if the CPU core cannot be instantiated (R105). -/
def createSoc (w : Surroundings) (c : Config) : Except Fatal Board :=
  if w.cpuAvailable then .ok (createPeripherals c) else .error .cpuUnavailable

/-- `create_board` step 2: map RAM at physical address 0 (R108). -/
def Board.mapRam (b : Board) (c : Config) : Board := { b with regions := ramRegion c :: b.regions }

/-- `load_image`: the bytes loaded, or a failure; an image of exactly the flash's size loads whole (R109, R110). -/
def loadImage (w : Surroundings) (file : String) (k : Slot) (flashSize : Nat) : Except Fatal Nat :=
  match w.imageSize file with
  | none => .error (.imageMissing k)
  | some n => if n ≤ flashSize then .ok n else .error (.imageTooLarge k)

/-- `create_board` step 3 for slot `k`: if its image is given, map the flash and load the image (R109). -/
def Board.installRom (b : Board) (w : Surroundings) (c : Config) (k : Slot) : Except Fatal Board :=
  match c.romFile k with
  | none => .ok b
  | some file =>
    match loadImage w file k (c.flashSize k) with
    | .ok n => .ok { b with regions := b.regions ++ [romRegion c k], loaded := b.loaded ++ [(k, n)] }
    | .error e => .error e

/-- `create_board` step 4: the CPU's entry-point register is `START_ADDR`, 0 if unset (R111). -/
def Board.setEntry (b : Board) (c : Config) : Board :=
  { b with state := { b.state with entry := c.startAddr.getD 0#32 } }

/-- `create_board`, R104: the steps in their order, ended by the first fatal error (R94). A configuration that breaks R4 is
refused before the first (D24; notes/assumptions/23). -/
def createBoard (w : Surroundings) (c : Config) : Except Fatal Board :=
  if c.wf then
    match createSoc w c with
    | .error e => .error e
    | .ok b0 =>
      match (b0.mapRam c).installRom w c .rom0 with
      | .error e => .error e
      | .ok b1 =>
        match b1.installRom w c .rom1 with
        | .error e => .error e
        | .ok b2 => .ok (b2.setEntry c)
  else .error .illegalConfiguration

end Sys2Proof.Machine
end

