-- ==== Sys2Proof/Safety.lean ====
section
/-! DEFINITION. The terms claims are made in: a faulted run (R93), and the invariants of the state. -/

namespace Sys2Proof.Machine

/-- The run is faulted: "A model treats perr = true as a fault of the run ... outside every claim" (R93, D14;
notes/assumptions/12). -/
def State.faulted (s : State) : Bool := s.perr

/-- The invariant of one timer: `cnt <= TIMER_LIMIT` (R12); a stopped timer holds 0 (R11, R70, R71); with
`ZERO_VISIBLE = false` and a limit that is not 0 a running one never does (R69). -/
def Timer.Inv (c : Config) (t : Timer) : Prop :=
  t.cnt ≤ c.timerLimit
  ∧ (t.mode = .stopped → t.cnt = 0#32)
  ∧ (c.zeroVisible = false → c.timerLimit ≠ 0#32 → t.mode = .running → t.cnt ≠ 0#32)

/-- The invariant of the UART: STATUS has TX_READY, perhaps RX_READY, and no other bit, so with these at bits 1 and 0 it is 2
or 3; and RX[31:8] = 0 (R19). -/
def Uart.Inv (c : Config) (u : Uart) : Prop :=
  (u.st = statusBit c.txReadyBit ∨ u.st = statusBit c.txReadyBit ||| statusBit c.rxReadyBit)
  ∧ u.rx.extractLsb' 8 24 = 0#24

/-- The invariant of the state: a legal configuration (R4); NUM_TIMERS timers (R7); each timer's and the UART's; the
endpoint as composed (R20, R107), and without one nothing was ever received or sent (R88); the entry point as composed
(R10, R111). -/
structure State.Inv (s : State) : Prop where
  config : s.cfg.wf = true
  timerCount : s.timers.length = s.cfg.numTimers
  timers : ∀ t ∈ s.timers, t.Inv s.cfg
  uart : s.uart.Inv s.cfg
  endpoint : s.ep.connected = s.cfg.endpointConnected
  unconnected : s.ep.connected = false → rxReady s.cfg s.uart = false ∧ s.ep.out = []
  entry : s.entry = s.cfg.startAddr.getD 0#32

/-- Every state of a run of `k` steps, the last too, is unfaulted: the runs claims are about (R93). -/
def unfaultedRun : Nat → State → Prop
  | 0, s => s.faulted = false
  | k + 1, s => s.faulted = false ∧ ∃ t, step s = .next t ∧ unfaultedRun k t

/-- The period of a timer, in ticks (R69, R72): 0xFFFF or 0x10000 for `TIMER_LIMIT` = 0xFFFF. -/
def period (c : Config) : Nat := if c.zeroVisible then c.timerLimit.toNat + 1 else c.timerLimit.toNat

end Sys2Proof.Machine
end

