-- ==== Sys2Proof/Certificates/Slice0/Obligations.lean ====
section
/-! DEFINITION. The statements for the provers. They are made from the numbered rules of spec/; each docstring names its
rules. The bus keys in them are written with `mkKey`, field by field as R47 has them, not with the model's encoder. -/

namespace Sys2Proof.Claims

open Machine

/-- The key of a 4-byte read (`w` = 0) or write (`w` = 1) at an address (R47, R49: K[35:32] = 0b0100 or 0b0101). -/
def wordKey (w : BitVec 1) (a : Nat) : Key := mkKey 0#4 0#1 2#2 w (BitVec.ofNat 32 a)

/-- The key of a register access, a read (`w` = 0) or write (`w` = 1) of `ACCESS_SIZE`, at an address (R37, R47, R49). -/
def regKey (c : Config) (w : BitVec 1) (a : Nat) : Key := mkKey 0#4 0#1 (szOfSize c.accessSize) w (BitVec.ofNat 32 a)

/-- The address of offset `off` of timer `n` (R62). -/
def timerAddr (c : Config) (n off : Nat) : Nat := c.timerBase + n * c.timerStride + off

/-- The address of offset `off` of the UART (R62). -/
def uartAddr (c : Config) (off : Nat) : Nat := c.uartBase + off

/-- What every composed machine has: a legal configuration (R4) and NUM_TIMERS instances (R7). `State.Inv` implies it. -/
def Legal (s : State) : Prop := s.cfg.wf = true ∧ s.timers.length = s.cfg.numTimers

/-- A rejected access ends so (R92): ERROR, data 0 for a read, one `rlog` entry, everything else unchanged. That a rejected
WRITE leaves the last read's data as it was is the model's reading of R5 and R50 (DEDUCED: notes/assumptions/9). -/
def RejectedAs (kind : RejectKind) (x : Access) (s t : State) : Prop :=
  t = { s with rlog := t.rlog, port := t.port }
  ∧ t.rlog = s.rlog ++ [⟨x.addr, x.size, dirOfXfer x.xfer, kind⟩]
  ∧ t.port.resp = .error ∧ t.port.answer = s.port.answer
  ∧ (x.xfer = .read → t.port.data = 0#32) ∧ (x.xfer ≠ .read → t.port.data = s.port.data)

/-- An invalid read ends so (R91): OK, data 0, one `ilog` entry, everything else unchanged. -/
def InvalidReadAs (dev : Device) (off : Nat) (s t : State) : Prop :=
  t = { s with ilog := s.ilog ++ [⟨dev, off, .read⟩], port := ⟨0#32, .ok, s.port.answer⟩ }

/-- An invalid write ends so (R91): OK, one `ilog` entry, everything else unchanged, the last read's data too (DEDUCED:
notes/assumptions/9). -/
def InvalidWriteAs (dev : Device) (off : Nat) (s t : State) : Prop :=
  t = { s with ilog := s.ilog ++ [⟨dev, off, .write⟩], port := ⟨s.port.data, .ok, s.port.answer⟩ }

/-- The operation reads a register of a device or is refused one there: the rows of R52 and R53. -/
def ofRegister : Instr → Bool
  | .timerWrControl _ _ | .timerRdValue _ | .timerRdControl _ | .timerWrValue _ _ | .timerRdRsvd _ _
  | .timerWrRsvd _ _ _ | .uartRdTx | .uartRdRx | .uartRdSt | .uartWrTx _ | .uartWrRx _ | .uartWrSt _
  | .uartRdRsvd _ | .uartWrRsvd _ _ => true
  | .busUnmapped _ | .ramAccess _ | .romAccess _ _ | .busBadSize _ | .busMisaligned _ | .timerTick _
  | .uartReceive _ | .uartReceiveViolation _ | .uartCanReceive | .reset | .uartEpEvent _ | .refusedRsv _
  | .refusedKind67 _ | .refusedKind815 _ | .refusedEventArg _ => false

/-- The operation changes timer `n`: its CONTROL write, its tick, or a reset (R71). -/
def changesTimer (n : Nat) : Instr → Bool
  | .timerWrControl m _ => decide (m = n)
  | .timerTick m => decide (m = n)
  | .reset => true
  | .timerRdValue _ | .timerRdControl _ | .timerWrValue _ _ | .timerRdRsvd _ _ | .timerWrRsvd _ _ _
  | .uartRdTx | .uartRdRx | .uartRdSt | .uartWrTx _ | .uartWrRx _ | .uartWrSt _ | .uartRdRsvd _
  | .uartWrRsvd _ _ | .busUnmapped _ | .ramAccess _ | .romAccess _ _ | .busBadSize _ | .busMisaligned _
  | .uartReceive _ | .uartReceiveViolation _ | .uartCanReceive | .uartEpEvent _ | .refusedRsv _
  | .refusedKind67 _ | .refusedKind815 _ | .refusedEventArg _ => false

/-- The operation is a delivery by the endpoint (R83, R84). -/
def isDelivery : Instr → Bool
  | .uartReceive _ | .uartReceiveViolation _ => true
  | .timerWrControl _ _ | .timerRdValue _ | .timerRdControl _ | .timerWrValue _ _ | .timerRdRsvd _ _
  | .timerWrRsvd _ _ _ | .uartRdTx | .uartRdRx | .uartRdSt | .uartWrTx _ | .uartWrRx _ | .uartWrSt _
  | .uartRdRsvd _ | .uartWrRsvd _ _ | .busUnmapped _ | .ramAccess _ | .romAccess _ _ | .busBadSize _
  | .busMisaligned _ | .timerTick _ | .uartCanReceive | .reset | .uartEpEvent _ | .refusedRsv _
  | .refusedKind67 _ | .refusedKind815 _ | .refusedEventArg _ => false

/-- Timer `n` is RUNNING (R24). -/
def running (s : State) (n : Nat) : Bool := decide (s.timers[n]?.map Timer.mode = some .running)

end Sys2Proof.Claims

open Sys2Proof Sys2Proof.Machine Sys2Proof.Claims

/-! ### The operations of the timers -/

/-- R63. The key of a CONTROL write decodes to TIMER_WR_CONTROL, and it completes: the timer runs from
TIMER_LIMIT (0xFFFF in R3) whatever it held and whatever is written; nothing else changes but the response; a second
write leaves the same state. That the write leaves the last read's data as it was is the model's (DEDUCED: notes/assumptions/9). -/
def Obligations.ControlWriteRestartsTimer : Prop :=
  ∀ (s : State) (n : Nat) (d : Word), n < s.timers.length →
    (∃ t, exec (.timerWrControl n d) s = .next t
      ∧ t.timers[n]? = some ⟨.running, s.cfg.timerLimit⟩
      ∧ (∀ m, m ≠ n → t.timers[m]? = s.timers[m]?)
      ∧ t.port = ⟨s.port.data, .ok, s.port.answer⟩
      ∧ t = { s with timers := t.timers, port := t.port }
      ∧ ∀ d', exec (.timerWrControl n d') t = .next t)
    ∧ (Legal s → timerNamed s.cfg n s.cfg.timerControlOff = true →
        decodeIn s ⟨regKey s.cfg 1#1 (timerAddr s.cfg n s.cfg.timerControlOff), d⟩ = .timerWrControl n d)

/-- R64. The key of a VALUE read decodes to TIMER_RD_VALUE, and it completes: the data is the count under
VALUE_MASK, with R3's mask its low 16 bits, zero-extended; nothing changes but the response. -/
def Obligations.ValueReadReturnsMaskedCount : Prop :=
  ∀ (s : State) (n : Nat) (u : Timer), s.timers[n]? = some u →
    (∃ t, exec (.timerRdValue n) s = .next t
      ∧ t.port.data = u.cnt &&& s.cfg.valueMask
      ∧ (s.cfg.valueMask = 0x0000FFFF#32 → t.port.data.toNat = u.cnt.toNat % 2 ^ 16)
      ∧ t.port.resp = .ok ∧ t.port.answer = s.port.answer
      ∧ t = { s with port := t.port })
    ∧ (Legal s → timerNamed s.cfg n s.cfg.timerValueOff = true → ∀ d,
        decodeIn s ⟨regKey s.cfg 0#1 (timerAddr s.cfg n s.cfg.timerValueOff), d⟩ = .timerRdValue n)

/-- R65 to R68. Each invalid access to a timer decodes from its key and completes as R91 says: logged, a read returns 0, no
timer changes. That a write leaves the last read's data as it was is the model's (DEDUCED: notes/assumptions/9). -/
def Obligations.TimerInvalidAccessesOnlyLog : Prop :=
  ∀ (s : State) (n off : Nat) (d : Word),
    (∃ t, exec (.timerRdControl n) s = .next t ∧ InvalidReadAs (.timer n) s.cfg.timerControlOff s t)
    ∧ (∃ t, exec (.timerWrValue n d) s = .next t ∧ InvalidWriteAs (.timer n) s.cfg.timerValueOff s t)
    ∧ (∃ t, exec (.timerRdRsvd n off) s = .next t ∧ InvalidReadAs (.timer n) off s t)
    ∧ (∃ t, exec (.timerWrRsvd n off d) s = .next t ∧ InvalidWriteAs (.timer n) off s t)
    ∧ (Legal s → timerNamed s.cfg n s.cfg.timerControlOff = true →
        decodeIn s ⟨regKey s.cfg 0#1 (timerAddr s.cfg n s.cfg.timerControlOff), d⟩ = .timerRdControl n)
    ∧ (Legal s → timerNamed s.cfg n s.cfg.timerValueOff = true →
        decodeIn s ⟨regKey s.cfg 1#1 (timerAddr s.cfg n s.cfg.timerValueOff), d⟩ = .timerWrValue n d)
    ∧ (Legal s → timerOffOk s.cfg n off = true → off ≠ s.cfg.timerControlOff → off ≠ s.cfg.timerValueOff →
        decodeIn s ⟨regKey s.cfg 0#1 (timerAddr s.cfg n off), d⟩ = .timerRdRsvd n off
        ∧ decodeIn s ⟨regKey s.cfg 1#1 (timerAddr s.cfg n off), d⟩ = .timerWrRsvd n off d)

/-- R69. A tick completes: a stopped timer is unchanged; a running one counts down by one, or reloads TIMER_LIMIT on expiry,
at 1 with `ZERO_VISIBLE` = false and at 0 with `ZERO_VISIBLE` = true; nothing else changes. -/
def Obligations.TickCountsDownOrReloads : Prop :=
  ∀ (s : State) (n : Nat) (u : Timer), s.timers[n]? = some u →
    (∃ t, exec (.timerTick n) s = .next t
      ∧ t = { s with timers := t.timers }
      ∧ (∀ m, m ≠ n → t.timers[m]? = s.timers[m]?)
      ∧ (u.mode = .stopped → t.timers[n]? = some u)
      ∧ (u.mode = .running → s.cfg.zeroVisible = false → u.cnt.toNat ≤ 1 →
          t.timers[n]? = some ⟨.running, s.cfg.timerLimit⟩)
      ∧ (u.mode = .running → s.cfg.zeroVisible = false → 2 ≤ u.cnt.toNat →
          t.timers[n]? = some ⟨.running, BitVec.ofNat 32 (u.cnt.toNat - 1)⟩)
      ∧ (u.mode = .running → s.cfg.zeroVisible = true → u.cnt.toNat = 0 →
          t.timers[n]? = some ⟨.running, s.cfg.timerLimit⟩)
      ∧ (u.mode = .running → s.cfg.zeroVisible = true → 1 ≤ u.cnt.toNat →
          t.timers[n]? = some ⟨.running, BitVec.ofNat 32 (u.cnt.toNat - 1)⟩))
    ∧ (n < s.cfg.numTimers → n < 2 ^ 32 → ∀ d,
        decodeIn s ⟨mkKey 1#4 0#1 0#2 0#1 (BitVec.ofNat 32 n), d⟩ = .timerTick n)

/-- R72. After one CONTROL write, whatever other operations follow but another CONTROL write of that timer or a reset, a
VALUE read completes and returns TIMER_LIMIT - (k mod P) under VALUE_MASK, k the ticks of that timer among them, P the
period; with R3's limit and mask that is 0xFFFF - (k mod 0xFFFF), or 0xFFFF - (k mod 0x10000) with `ZERO_VISIBLE` = true. -/
def Obligations.ValueFollowsClosedForm : Prop :=
  ∀ (s t : State) (n : Nat) (d : Word) (is : List Instr), n < s.timers.length →
    (∀ i ∈ is, i ≠ .reset ∧ ∀ d', i ≠ .timerWrControl n d') →
    execAll (.timerWrControl n d :: is) s = .next t →
    ∃ u, exec (.timerRdValue n) t = .next u
      ∧ u.port.data
          = BitVec.ofNat 32 (s.cfg.timerLimit.toNat - is.count (.timerTick n) % period s.cfg) &&& s.cfg.valueMask
      ∧ (s.cfg.timerLimit = 0xFFFF#32 → s.cfg.valueMask = 0xFFFF#32 →
          u.port.data.toNat = 0xFFFF - is.count (.timerTick n) % (if s.cfg.zeroVisible then 0x10000 else 0xFFFF))

/-- R73. An operation that is not timer n's own CONTROL write, its own tick, or a reset leaves T[n] as it was. -/
def Obligations.TimersAreIndependent : Prop :=
  ∀ (s t : State) (i : Instr) (n : Nat), exec i s = .next t → changesTimer n i = false →
    t.timers[n]? = s.timers[n]?

/-- R73, R7. What a VALUE read of timer n returns and what its tick leaves depend on T[n] alone: two states that agree on it
and on the timers' three parameters give the same data and the same T[n], however they differ elsewhere. -/
def Obligations.TimerSeesOnlyItself : Prop :=
  ∀ (s s' t t' v v' : State) (n : Nat), s.timers[n]? = s'.timers[n]? → s.cfg.zeroVisible = s'.cfg.zeroVisible →
    s.cfg.timerLimit = s'.cfg.timerLimit → s.cfg.valueMask = s'.cfg.valueMask →
    exec (.timerRdValue n) s = .next t → exec (.timerRdValue n) s' = .next t' →
    exec (.timerTick n) s = .next v → exec (.timerTick n) s' = .next v' →
    t.port.data = t'.port.data ∧ v.timers[n]? = v'.timers[n]?

/-- R7. "no two devices alias any state": an operation other than a reset changes the timers or the UART and its endpoint,
not both. -/
def Obligations.DevicesShareNoState : Prop :=
  ∀ (s t : State) (i : Instr), exec i s = .next t → i ≠ .reset →
    t.timers = s.timers ∨ (t.uart = s.uart ∧ t.ep = s.ep ∧ t.perr = s.perr)

/-- R25. In a state of the invariant with `ZERO_VISIBLE` = false and R3's limit and mask, a VALUE read of 0 means the timer is
STOPPED and a nonzero read means it is RUNNING. -/
def Obligations.ValueReadTellsMode : Prop :=
  ∀ (s : State) (n : Nat) (u : Timer), s.Inv → s.cfg.zeroVisible = false →
    s.cfg.timerLimit = 0xFFFF#32 → s.cfg.valueMask = 0xFFFF#32 → s.timers[n]? = some u →
    ∃ t, exec (.timerRdValue n) s = .next t ∧ (t.port.data = 0#32 ↔ u.mode = .stopped)
      ∧ (t.port.data ≠ 0#32 ↔ u.mode = .running)

/-! ### The operations of the UART -/

/-- R75. The key of an RX read decodes to UART_RD_RX, and it completes: the data is RX, RX_READY is cleared, every other
STATUS bit, RX itself and everything else stay. -/
def Obligations.RxReadConsumesByte : Prop :=
  ∀ (s : State),
    (∃ t, exec .uartRdRx s = .next t
      ∧ t.port = ⟨s.uart.rx, .ok, s.port.answer⟩
      ∧ t.uart.st.getLsbD s.cfg.rxReadyBit = false
      ∧ (∀ j, j ≠ (s.cfg.rxReadyBit : Nat) → t.uart.st.getLsbD j = s.uart.st.getLsbD j)
      ∧ t = { s with uart := ⟨s.uart.rx, t.uart.st, s.uart.tx⟩, port := t.port })
    ∧ (Legal s → uartNamed s.cfg s.cfg.uartRxOff = true → ∀ d,
        decodeIn s ⟨regKey s.cfg 0#1 (uartAddr s.cfg s.cfg.uartRxOff), d⟩ = .uartRdRx)

/-- R76, R79. The keys of a STATUS read and a STATUS write decode to UART_RD_ST and UART_WR_ST, and both complete: the read
returns STATUS, the write is ignored, and neither changes anything but the response, no log either. That the write leaves the
last read's data as it was is the model's (DEDUCED: notes/assumptions/9). -/
def Obligations.StatusAccessHasNoEffect : Prop :=
  ∀ (s : State) (d : Word),
    exec .uartRdSt s = .next { s with port := ⟨s.uart.st, .ok, s.port.answer⟩ }
    ∧ exec (.uartWrSt d) s = .next { s with port := ⟨s.port.data, .ok, s.port.answer⟩ }
    ∧ (Legal s → uartNamed s.cfg s.cfg.uartStOff = true →
        decodeIn s ⟨regKey s.cfg 0#1 (uartAddr s.cfg s.cfg.uartStOff), d⟩ = .uartRdSt
        ∧ decodeIn s ⟨regKey s.cfg 1#1 (uartAddr s.cfg s.cfg.uartStOff), d⟩ = .uartWrSt d)

/-- R77, R88. The key of a TX write decodes to UART_WR_TX, and it completes: with an endpoint the low byte of the value is
appended to the stream, with none it is dropped; nothing else changes but the response, the TX register (a free value, R18,
notes/assumptions/7) and the index of free values. That the write leaves the last read's data as it was is the model's
(DEDUCED: notes/assumptions/9). -/
def Obligations.TxWriteEmitsLowByte : Prop :=
  ∀ (s : State) (d : Word),
    (∃ t, exec (.uartWrTx d) s = .next t
      ∧ (s.ep.connected = true → t.ep.out = s.ep.out ++ [BitVec.ofNat 8 (d.toNat % 256)])
      ∧ (s.ep.connected = false → t.ep.out = s.ep.out)
      ∧ t.port = ⟨s.port.data, .ok, s.port.answer⟩
      ∧ t = { s with ep := ⟨s.ep.connected, t.ep.out⟩, uart := ⟨s.uart.rx, s.uart.st, t.uart.tx⟩,
                     port := t.port, draw := t.draw })
    ∧ (Legal s → uartNamed s.cfg s.cfg.uartTxOff = true →
        decodeIn s ⟨regKey s.cfg 1#1 (uartAddr s.cfg s.cfg.uartTxOff), d⟩ = .uartWrTx d)

/-- R77. N writes deliver exactly those N bytes, in the same order. -/
def Obligations.TransmittedBytesKeepOrder : Prop :=
  ∀ (s : State) (ds : List Word), s.ep.connected = true →
    ∃ t, execAll (ds.map .uartWrTx) s = .next t
      ∧ t.ep.out = s.ep.out ++ ds.map (fun d => BitVec.ofNat 8 (d.toNat % 256))

/-- R74, R78, R80, R81. Each invalid access to the UART decodes from its key and completes as R91 says: logged, a read
returns 0, no register changes. That a write leaves the last read's data as it was is the model's (DEDUCED:
notes/assumptions/9). -/
def Obligations.UartInvalidAccessesOnlyLog : Prop :=
  ∀ (s : State) (off : Nat) (d : Word),
    (∃ t, exec .uartRdTx s = .next t ∧ InvalidReadAs .uart s.cfg.uartTxOff s t)
    ∧ (∃ t, exec (.uartWrRx d) s = .next t ∧ InvalidWriteAs .uart s.cfg.uartRxOff s t)
    ∧ (∃ t, exec (.uartRdRsvd off) s = .next t ∧ InvalidReadAs .uart off s t)
    ∧ (∃ t, exec (.uartWrRsvd off d) s = .next t ∧ InvalidWriteAs .uart off s t)
    ∧ (Legal s → uartNamed s.cfg s.cfg.uartTxOff = true →
        decodeIn s ⟨regKey s.cfg 0#1 (uartAddr s.cfg s.cfg.uartTxOff), d⟩ = .uartRdTx)
    ∧ (Legal s → uartNamed s.cfg s.cfg.uartRxOff = true →
        decodeIn s ⟨regKey s.cfg 1#1 (uartAddr s.cfg s.cfg.uartRxOff), d⟩ = .uartWrRx d)
    ∧ (Legal s → uartOffOk s.cfg off = true →
        off ≠ s.cfg.uartTxOff → off ≠ s.cfg.uartRxOff → off ≠ s.cfg.uartStOff →
        decodeIn s ⟨regKey s.cfg 0#1 (uartAddr s.cfg off), d⟩ = .uartRdRsvd off
        ∧ decodeIn s ⟨regKey s.cfg 1#1 (uartAddr s.cfg off), d⟩ = .uartWrRsvd off d)

/-- R82. The key of `can_receive` decodes to UART_CAN_RECEIVE, and it completes: the answer is true exactly when RX_READY is
0, and nothing else changes. -/
def Obligations.CanReceiveAnswersNotReady : Prop :=
  ∀ (s : State) (d : Word),
    (∃ t, exec .uartCanReceive s = .next t
      ∧ (t.port.answer = true ↔ s.uart.st.getLsbD s.cfg.rxReadyBit = false)
      ∧ t = { s with port := ⟨s.port.data, s.port.resp, t.port.answer⟩ })
    ∧ decodeIn s ⟨mkKey 3#4 0#1 0#2 0#1 0#32, d⟩ = .uartCanReceive

/-- R82. A true answer of `can_receive` stays true until the next delivery (the two STATUS bits being two bits, as R17 and
every legal configuration have them). -/
def Obligations.CanReceiveStaysTrueUntilDelivery : Prop :=
  ∀ (s t : State) (is : List Instr), s.cfg.rxReadyBit ≠ s.cfg.txReadyBit → rxReady s.cfg s.uart = false →
    (∀ i ∈ is, isDelivery i = false) →
    execAll is s = .next t → ∃ u, exec .uartCanReceive t = .next u ∧ u.port.answer = true

/-- R83. The key of a delivery, while RX_READY is 0 and an endpoint is connected, decodes to UART_RECEIVE, and it completes:
RX is the byte zero-extended, RX_READY is set, every other STATUS bit and everything else stay. The row of the same key,
UART_RECEIVE_VIOLATION, means the same in such a state, which is the model's reading of "the state decides" (DEDUCED:
notes/assumptions/14). What a delivery does with no endpoint is `UnconnectedEndpointNeverDelivers`. -/
def Obligations.DeliveryFillsRx : Prop :=
  ∀ (s : State) (b : Byte), s.ep.connected = true → s.uart.st.getLsbD s.cfg.rxReadyBit = false →
    (∃ t, exec (.uartReceive b) s = .next t
      ∧ t.uart.rx.toNat = b.toNat
      ∧ t.uart.st.getLsbD s.cfg.rxReadyBit = true
      ∧ (∀ j, j ≠ (s.cfg.rxReadyBit : Nat) → t.uart.st.getLsbD j = s.uart.st.getLsbD j)
      ∧ t = { s with uart := ⟨t.uart.rx, t.uart.st, s.uart.tx⟩ }
      ∧ exec (.uartReceiveViolation b) s = .next t)
    ∧ ∀ d, decodeIn s ⟨mkKey 2#4 0#1 0#2 0#1 (b.setWidth 32), d⟩ = .uartReceive b

/-- R84, R93. The key of a delivery, while RX_READY is 1, decodes to UART_RECEIVE_VIOLATION, and it completes: `perr` is
true and everything else stays, the pending byte too. UART_RECEIVE means the same in such a state. -/
def Obligations.OverDeliveryIsRejected : Prop :=
  ∀ (s : State) (b : Byte), s.ep.connected = true → s.uart.st.getLsbD s.cfg.rxReadyBit = true →
    exec (.uartReceiveViolation b) s = .next { s with perr := true }
    ∧ exec (.uartReceive b) s = .next { s with perr := true }
    ∧ State.faulted { s with perr := true } = true
    ∧ ∀ d, decodeIn s ⟨mkKey 2#4 0#1 0#2 0#1 (b.setWidth 32), d⟩ = .uartReceiveViolation b

/-- R88. With no endpoint a delivery is no step, in any state, and from a state with RX_READY = 0 no step sets RX_READY
(the form of the refusal: notes/assumptions/13). -/
def Obligations.UnconnectedEndpointNeverDelivers : Prop :=
  ∀ (s : State) (b : Byte), s.ep.connected = false →
    exec (.uartReceive b) s = .refused (.noEndpoint b)
    ∧ exec (.uartReceiveViolation b) s = .refused (.noEndpoint b)
    ∧ ∀ t, step s = .next t → t.ep.connected = false ∧ t.ep.out = s.ep.out
        ∧ (s.cfg.rxReadyBit ≠ s.cfg.txReadyBit → rxReady s.cfg s.uart = false → rxReady t.cfg t.uart = false)

/-- R85. The keys of connect and disconnect decode to UART_EP_EVENT, and it completes with nothing changed. -/
def Obligations.EndpointEventChangesNothing : Prop :=
  ∀ (s : State) (d : Word), (∀ ev, exec (.uartEpEvent ev) s = .next s)
    ∧ decodeIn s ⟨mkKey 5#4 0#1 0#2 0#1 0#32, d⟩ = .uartEpEvent .connect
    ∧ decodeIn s ⟨mkKey 5#4 0#1 0#2 0#1 1#32, d⟩ = .uartEpEvent .disconnect

/-- R115. After an accepted delivery, whatever other operations follow but an RX read or a reset, STATUS reads RX_READY = 1,
and an RX read completes, returns that byte and clears RX_READY. -/
def Obligations.PendingByteSurvivesUntilRead : Prop :=
  ∀ (s t : State) (b : Byte) (is : List Instr), s.ep.connected = true → rxReady s.cfg s.uart = false →
    (∀ i ∈ is, i ≠ .uartRdRx ∧ i ≠ .reset) →
    execAll (.uartReceive b :: is) s = .next t →
    ∃ u v, exec .uartRdSt t = .next u ∧ u.port.data.getLsbD t.cfg.rxReadyBit = true
      ∧ exec .uartRdRx u = .next v ∧ v.port.data = b.setWidth 32 ∧ rxReady v.cfg v.uart = false

/-- R19, which the spec marks as its own inference from R16, R17, R83 and R86. STATUS is TX_READY alone or TX_READY with
RX_READY, and RX[31:8] is 0, after composition and after every step from such a state; with R3's bits STATUS is then 2 or 3. -/
def Obligations.UartRegistersStayLegal : Prop :=
  (∀ c, (State.ofConfig c).uart.Inv c)
  ∧ (∀ s t : State, s.cfg.rxReadyBit ≠ s.cfg.txReadyBit → s.uart.Inv s.cfg → step s = .next t → t.uart.Inv t.cfg)
  ∧ ∀ (c : Config) (u : Uart), c.rxReadyBit = 0 → c.txReadyBit = 1 → u.Inv c →
      u.st = 0x00000002#32 ∨ u.st = 0x00000003#32

/-- R24. The three flags are written only as R24's table says: RX_READY is set by a delivery and cleared by an RX read or a
reset; TX_READY is set by a reset and cleared by nothing; RUNNING is set by a CONTROL write and cleared by a reset (the two
STATUS bits being two bits, as R17 and every legal configuration have them). -/
def Obligations.FlagsWrittenOnlyAsListed : Prop :=
  ∀ (s t : State) (i : Instr), s.cfg.rxReadyBit ≠ s.cfg.txReadyBit → exec i s = .next t →
    (rxReady s.cfg s.uart = false → rxReady t.cfg t.uart = true → isDelivery i = true)
    ∧ (rxReady s.cfg s.uart = true → rxReady t.cfg t.uart = false → i = .uartRdRx ∨ i = .reset)
    ∧ (txReady s.cfg s.uart = false → txReady t.cfg t.uart = true → i = .reset)
    ∧ (txReady s.cfg s.uart = true → txReady t.cfg t.uart = true)
    ∧ (∀ n, running s n = false → running t n = true → ∃ d, i = .timerWrControl n d)
    ∧ (∀ n, running s n = true → running t n = false → i = .reset)

/-! ### The mux and the errors -/

/-- R29, R28. In a legal configuration, the routing function answers a target exactly when the address lies in that target's
region of the table, whatever the order of the tests, and UNMAPPED exactly when it lies in none. -/
def Obligations.RoutingFollowsRegionTable : Prop :=
  ∀ (c : Config) (a : Addr), c.wf = true →
    (∀ r ∈ regionTable c, r.lo ≤ a.toNat → a.toNat < r.hi → route c a = r.target)
    ∧ (route c a = .unmapped ↔ ∀ r ∈ regionTable c, ¬ (r.lo ≤ a.toNat ∧ a.toNat < r.hi))
    ∧ (∀ r ∈ regionTable c, route c a = r.target → r.lo ≤ a.toNat ∧ a.toNat < r.hi)

/-- R32, R92. A transaction at an address in no region, of any size and direction, decodes to BUS_UNMAPPED, and it completes
rejected: ERROR, data 0, one `rlog` entry, no device changed. That a rejected write leaves the last read's data as it was is
the model's reading (DEDUCED: notes/assumptions/9). -/
def Obligations.UnmappedAccessIsRejected : Prop :=
  ∀ (s : State) (x : Access),
    (∃ t, exec (.busUnmapped x) s = .next t ∧ RejectedAs .unmapped x s t)
    ∧ (route s.cfg x.addr = .unmapped →
        decodeIn s ⟨mkKey 0#4 0#1 (szOfSize x.size) (wOfXfer x.xfer) x.addr, dataOfXfer x.xfer⟩ = .busUnmapped x)

/-- R38. A device transaction whose size is not ACCESS_SIZE (4 in R3), of either direction and alignment, decodes to
BUS_BAD_SIZE, and it completes rejected: ERROR, data 0, one `rlog` entry, no device changed (no RX consumed, no timer
started). That a rejected write leaves the last read's data as it was is the model's reading (DEDUCED:
notes/assumptions/9). -/
def Obligations.WrongSizeIsRejected : Prop :=
  ∀ (s : State) (x : Access),
    (∃ t, exec (.busBadSize x) s = .next t ∧ RejectedAs .badSize x s t)
    ∧ ((route s.cfg x.addr).isDevice = true → x.size ≠ s.cfg.accessSize →
        decodeIn s ⟨mkKey 0#4 0#1 (szOfSize x.size) (wOfXfer x.xfer) x.addr, dataOfXfer x.xfer⟩ = .busBadSize x)

/-- R39. A device transaction of ACCESS_SIZE (4 in R3) whose offset has a nonzero low bit pair decodes to BUS_MISALIGNED, and
it completes rejected: ERROR, data 0, one `rlog` entry, no device changed. That a rejected write leaves the last read's data
as it was is the model's reading (DEDUCED: notes/assumptions/9). -/
def Obligations.MisalignedIsRejected : Prop :=
  ∀ (s : State) (x : Access),
    (∃ t, exec (.busMisaligned x) s = .next t ∧ RejectedAs .misaligned x s t)
    ∧ (∀ n, Legal s → x.size = s.cfg.accessSize → route s.cfg x.addr = .timer n →
        (x.addr.toNat - timerAddr s.cfg n 0) % 4 ≠ 0 →
        decodeIn s ⟨mkKey 0#4 0#1 (szOfSize x.size) (wOfXfer x.xfer) x.addr, dataOfXfer x.xfer⟩ = .busMisaligned x)
    ∧ (Legal s → x.size = s.cfg.accessSize → route s.cfg x.addr = .uart →
        (x.addr.toNat - uartAddr s.cfg 0) % 4 ≠ 0 →
        decodeIn s ⟨mkKey 0#4 0#1 (szOfSize x.size) (wOfXfer x.xfer) x.addr, dataOfXfer x.xfer⟩ = .busMisaligned x)

/-- R31. A transaction to RAM or a present ROM, of any size and alignment, decodes to RAM_ACCESS or ROM_ACCESS, and it
completes: it is handed to the target with its address, size and data unchanged; its data and response are the target's
(free values, notes/assumptions/6, so nothing is said of them); no device changes. The record `fwd` of what was handed on is
the model's (DESIGN CHOICE: notes/assumptions/6), and so is that a write leaves the last read's data as it was (DEDUCED:
notes/assumptions/9). -/
def Obligations.MemoryAccessIsForwarded : Prop :=
  ∀ (s : State) (x : Access) (k : Slot),
    (∃ t, exec (.ramAccess x) s = .next t ∧ t.fwd = s.fwd ++ [⟨.ram, x⟩]
      ∧ (x.xfer ≠ .read → t.port.data = s.port.data) ∧ t.port.answer = s.port.answer
      ∧ t = { s with fwd := t.fwd, draw := t.draw, port := t.port })
    ∧ (∃ t, exec (.romAccess k x) s = .next t ∧ t.fwd = s.fwd ++ [⟨.rom k, x⟩]
      ∧ (x.xfer ≠ .read → t.port.data = s.port.data) ∧ t.port.answer = s.port.answer
      ∧ t = { s with fwd := t.fwd, draw := t.draw, port := t.port })
    ∧ (x.addr.toNat < s.cfg.ramSize →
        decodeIn s ⟨mkKey 0#4 0#1 (szOfSize x.size) (wOfXfer x.xfer) x.addr, dataOfXfer x.xfer⟩ = .ramAccess x)
    ∧ (route s.cfg x.addr = .rom k →
        decodeIn s ⟨mkKey 0#4 0#1 (szOfSize x.size) (wOfXfer x.xfer) x.addr, dataOfXfer x.xfer⟩ = .romAccess k x)

/-- R96. Of the errors one access meets, the first of UNMAPPED, BAD_SIZE, MISALIGNED, invalid access is reported, and only
it; a bus access logs at most one entry. -/
def Obligations.FirstErrorOnlyIsReported : Prop :=
  ∀ (c : Config) (x : Access), c.wf = true →
    (route c x.addr = .unmapped → decodeAccess c x = .busUnmapped x)
    ∧ ((route c x.addr).isDevice = true → x.size ≠ c.accessSize → decodeAccess c x = .busBadSize x)
    ∧ ((route c x.addr).isDevice = true → x.size = c.accessSize →
        (x.addr.toNat - regionBase c (route c x.addr)) % 4 ≠ 0 → decodeAccess c x = .busMisaligned x)
    ∧ ((route c x.addr).isDevice = true → x.size = c.accessSize →
        (x.addr.toNat - regionBase c (route c x.addr)) % 4 = 0 → ofRegister (decodeAccess c x) = true)
    ∧ ∀ s t : State, s.cfg = c → exec (decodeAccess c x) s = .next t →
        t.ilog.length + t.rlog.length ≤ s.ilog.length + s.rlog.length + 1

/-- R49. Only the `SZ` of ACCESS_SIZE reaches a device register; with R3's ACCESS_SIZE of 4 bytes the key of an accepted
device access has K[35:32] = 0b0100 for a read and 0b0101 for a write. -/
def Obligations.OnlyWordKeysReachRegisters : Prop :=
  ∀ (c : Config) (rx : Bool) (k : Key) (d : Word), ofRegister (decode c rx k d) = true →
    k.extractLsb' 35 5 = 0#5 ∧ k.extractLsb' 33 2 = szOfSize c.accessSize
    ∧ (c.accessSize = .b4 → k.extractLsb' 32 4 = 0b0100#4 ∨ k.extractLsb' 32 4 = 0b0101#4)

/-- R40. A bus read other than an RX read changes no device state: no timer, no UART register, nothing of the endpoint, and
not `perr`. -/
def Obligations.OnlyRxReadHasSideEffect : Prop :=
  ∀ (s t : State) (k : Key) (d : Word), k.extractLsb' 36 4 = 0#4 → k.extractLsb' 32 1 = 0#1 →
    decodeIn s ⟨k, d⟩ ≠ .uartRdRx → perform ⟨k, d⟩ s = .next t →
    t.timers = s.timers ∧ t.uart = s.uart ∧ t.ep = s.ep ∧ t.perr = s.perr ∧ t.cfg = s.cfg

/-- R57, R56. A key with RSV = 1, with KIND 6 to 15, or an event key that breaks R56 is refused by name, in every state; so
are the four rows that stand for such keys. -/
def Obligations.MalformedKeysAreRefused : Prop :=
  ∀ (s : State) (k : Key) (d : Word),
    exec (.refusedRsv k) s = .refused (.reservedBit k)
    ∧ exec (.refusedKind67 k) s = .refused (.reservedKind67 k)
    ∧ exec (.refusedKind815 k) s = .refused (.reservedKind815 k)
    ∧ exec (.refusedEventArg k) s = .refused (.eventArgument k)
    ∧ (k.getLsbD 35 = true → perform ⟨k, d⟩ s = .refused (.reservedBit k))
    ∧ (k.getLsbD 35 = false → (k.toNat / 2 ^ 36 = 6 ∨ k.toNat / 2 ^ 36 = 7) →
        perform ⟨k, d⟩ s = .refused (.reservedKind67 k))
    ∧ (k.getLsbD 35 = false → 8 ≤ k.toNat / 2 ^ 36 → perform ⟨k, d⟩ s = .refused (.reservedKind815 k))
    ∧ (k.getLsbD 35 = false → 1 ≤ k.toNat / 2 ^ 36 → k.toNat / 2 ^ 36 ≤ 5 →
        (k.toNat / 2 ^ 32 % 8 ≠ 0
         ∨ (k.toNat / 2 ^ 36 = 1 ∧ s.cfg.numTimers ≤ k.toNat % 2 ^ 32)
         ∨ (k.toNat / 2 ^ 36 = 2 ∧ 2 ^ 8 ≤ k.toNat % 2 ^ 32)
         ∨ ((k.toNat / 2 ^ 36 = 3 ∨ k.toNat / 2 ^ 36 = 4) ∧ k.toNat % 2 ^ 32 ≠ 0)
         ∨ (k.toNat / 2 ^ 36 = 5 ∧ 2 ≤ k.toNat % 2 ^ 32)) →
        perform ⟨k, d⟩ s = .refused (.eventArgument k))

/-- R98, R90. A bus transaction always completes, whatever error it meets: OK or ERROR, never a stop. -/
def Obligations.BusTransactionAlwaysCompletes : Prop :=
  ∀ (s : State) (k : Key) (d : Word), Legal s → k.extractLsb' 36 4 = 0#4 → k.extractLsb' 35 1 = 0#1 →
    ∃ t, perform ⟨k, d⟩ s = .next t ∧ t.seq = s.seq

/-- R46. An instruction fetch from a timer or UART window is refused: no step. (That a fetch is a line of the script is the
model's choice, notes/assumptions/15.) -/
def Obligations.FetchFromDeviceIsRefused : Prop :=
  ∀ (s : State) (a : Addr) (z : Size), currentLine s = some (.fetch a z) → (route s.cfg a).isDevice = true →
    step s = .refused (.fetchFromDevice a)

/-! ### Reset and composition -/

/-- R112, R70, R86. The key of RESET decodes to RESET, and it completes: every timer is STOPPED at 0, RX and TX are 0, STATUS
has TX_READY alone (0x2 with R3's bit), and everything else stays: configuration, endpoint, stream, logs, `perr`. -/
def Obligations.ResetClearsDevicesOnly : Prop :=
  ∀ (s : State) (d : Word),
    exec .reset s = .next { s with
      timers := List.replicate s.timers.length ⟨.stopped, 0x00000000#32⟩
      uart := ⟨0x00000000#32, statusBit s.cfg.txReadyBit, 0x00000000#32⟩ }
    ∧ (s.cfg.txReadyBit = 1 → statusBit s.cfg.txReadyBit = 0x00000002#32)
    ∧ decodeIn s ⟨mkKey 4#4 0#1 0#2 0#1 0#32, d⟩ = .reset

/-- R26. The state after composition, row by row. -/
def Obligations.CompositionLeavesResetValues : Prop :=
  ∀ c : Config, (State.ofConfig c).timers.length = c.numTimers
    ∧ (∀ u ∈ (State.ofConfig c).timers, u = ⟨.stopped, 0#32⟩)
    ∧ (State.ofConfig c).uart = ⟨0x00000000#32, statusBit c.txReadyBit, 0x00000000#32⟩
    ∧ (c.txReadyBit = 1 → (State.ofConfig c).uart.st = 0x00000002#32)
    ∧ (State.ofConfig c).ep = ⟨c.endpointConnected, []⟩
    ∧ (State.ofConfig c).ilog = [] ∧ (State.ofConfig c).rlog = [] ∧ (State.ofConfig c).perr = false
    ∧ (State.ofConfig c).entry = c.startAddr.getD 0#32

/-- R104, R28, R107 to R111. When `create_board` answers a machine, the configuration is legal, the CPU was instantiated, and
each image given exists, fits its flash and was loaded whole; the machine is in the reset state of R26, with the region table
of R28, and meets the invariant. -/
def Obligations.CompositionBuildsResetMachine : Prop :=
  ∀ (w : Surroundings) (c : Config) (b : Board), createBoard w c = .ok b →
    c.wf = true ∧ w.cpuAvailable = true
    ∧ (∀ k file, c.romFile k = some file → ∃ n, w.imageSize file = some n ∧ n ≤ c.flashSize k ∧ (k, n) ∈ b.loaded)
    ∧ b.state = State.ofConfig c ∧ b.regions = regionTable c ∧ b.state.Inv

/-- R94, R104, R105, R109, D33. The first fatal error, in the order of the steps, is the one reported, and there is then no
machine; without one there is a machine. -/
def Obligations.FirstFatalErrorEndsComposition : Prop :=
  ∀ (w : Surroundings) (c : Config), c.wf = true →
    (w.cpuAvailable = false → createBoard w c = .error .cpuUnavailable)
    ∧ (w.cpuAvailable = true → ∀ file, c.romFile .rom0 = some file →
        (w.imageSize file = none → createBoard w c = .error (.imageMissing .rom0))
        ∧ ∀ n, w.imageSize file = some n → c.flashSize .rom0 < n → createBoard w c = .error (.imageTooLarge .rom0))
    ∧ (w.cpuAvailable = true →
        (∀ file, c.romFile .rom0 = some file → ∃ n, w.imageSize file = some n ∧ n ≤ c.flashSize .rom0) →
        ∀ file, c.romFile .rom1 = some file →
        (w.imageSize file = none → createBoard w c = .error (.imageMissing .rom1))
        ∧ ∀ n, w.imageSize file = some n → c.flashSize .rom1 < n → createBoard w c = .error (.imageTooLarge .rom1))
    ∧ (w.cpuAvailable = true →
        (∀ k file, c.romFile k = some file → ∃ n, w.imageSize file = some n ∧ n ≤ c.flashSize k) →
        ∃ b, createBoard w c = .ok b)

/-- R110. In either slot, an image of exactly the flash's size loads whole; one byte more is fatal. -/
def Obligations.ImageSizeBoundary : Prop :=
  ∀ (w : Surroundings) (c : Config) (k k' : Slot) (file : String), c.wf = true → w.cpuAvailable = true →
    k ≠ k' → c.romFile k = some file → c.romFile k' = none →
    (w.imageSize file = some (c.flashSize k) →
      ∃ b, createBoard w c = .ok b ∧ b.loaded = [(k, c.flashSize k)])
    ∧ (w.imageSize file = some (c.flashSize k + 1) → createBoard w c = .error (.imageTooLarge k))

/-! ### The encoding -/

/-- Decode inverts encode (R47 to R53, R56): the key and data word of every well-formed operation of every legal
configuration decode to that operation, with every operand at every value. -/
def Obligations.DecodeInvertsEncode : Prop :=
  ∀ (c : Config) (rx : Bool) (i : Instr), c.wf = true → i.wf c = true → i.fitsState rx = true →
    decode c rx (encode c i).key (encode c i).data = i

/-- Encode inverts decode: no bit of a key is dropped, and no bit of a write's data word. -/
def Obligations.EncodeInvertsDecode : Prop :=
  ∀ (c : Config) (rx : Bool) (k : Key) (d : Word), c.wf = true →
    (encode c (decode c rx k d)).key = k
    ∧ (k.extractLsb' 36 4 = 0#4 → k.extractLsb' 35 1 = 0#1 → k.extractLsb' 32 1 = 1#1 →
        (encode c (decode c rx k d)).data = d)

/-- Every key decodes to an operation that meets the constraint of its row and fits the state (R51). -/
def Obligations.DecodedOperationIsWellFormed : Prop :=
  ∀ (c : Config) (rx : Bool) (k : Key) (d : Word), c.wf = true →
    (decode c rx k d).wf c = true ∧ (decode c rx k d).fitsState rx = true

/-- R62. The keys the spec writes out, with the default parameters (PRESUMED: notes/assumptions/4). -/
def Obligations.WrittenOutKeysDecode : Prop :=
  decode Config.default false 0x04C021000C#40 0#32 = .timerRdValue 0
  ∧ decode Config.default false 0x05C0210000#40 0#32 = .timerWrControl 0 0#32
  ∧ decode Config.default false 0x04C0800004#40 0#32 = .uartRdRx
  ∧ decode Config.default false 0x04C0800014#40 0#32 = .uartRdSt
  ∧ decode Config.default false 0x05C0800000#40 0x41#32 = .uartWrTx 0x41#32
  ∧ decode Config.default false 0x1000000001#40 0#32 = .timerTick 1
  ∧ decode Config.default false 0x2000000041#40 0#32 = .uartReceive 0x41#8
  ∧ decode Config.default false 0x4000000000#40 0#32 = .reset

/-! ### The machine -/

/-- A step runs the decoded operation: when the script's line is an operation, the step is its meaning, the position moved
to the next line (R43, R60; the position is R61's; that the step reads a script is the model's choice,
notes/assumptions/1). -/
def Obligations.StepRunsDecodedOperation : Prop :=
  ∀ (s : State) (o : Op), s.seq.script[s.seq.line]? = some (.op o) →
    step s = exec (decode s.cfg (rxReady s.cfg s.uart) o.key o.data)
      { s with seq := ⟨s.seq.script, s.seq.line + 1, 0⟩ }

/-- R61. A POLL at its read performs a 4-byte read of its address, and leaves the line exactly when `(data & m) = v`; else
the environment operations of its braces are next, and, with none, the read again. That the read and its test are one step
is the model's choice (notes/assumptions/21). -/
def Obligations.PollRereadsUntilMatch : Prop :=
  ∀ (s : State) (a m v : Word) (env : List Op),
    s.seq.script[s.seq.line]? = some (.poll a m v env) → s.seq.sub = 0 → Legal s →
    ∃ t u, exec (decode s.cfg (rxReady s.cfg s.uart) (wordKey 0#1 a.toNat) 0#32) s = .next t ∧ step s = .next u
      ∧ u = { t with seq := u.seq } ∧ u.seq.script = s.seq.script
      ∧ (t.port.data &&& m = v → u.seq.line = s.seq.line + 1 ∧ u.seq.sub = 0)
      ∧ (t.port.data &&& m ≠ v → u.seq.line = s.seq.line ∧ u.seq.sub = if env = [] then 0 else 1)

/-- R61. Inside the braces of a POLL the environment operations are performed in their written order, and after the last the
read is next (one step each: notes/assumptions/21). -/
def Obligations.PollBracesRunInOrder : Prop :=
  ∀ (s : State) (a m v : Word) (env : List Op) (j : Nat) (o : Op),
    s.seq.script[s.seq.line]? = some (.poll a m v env) → s.seq.sub = j + 1 → env[j]? = some o →
    step s = exec (decode s.cfg (rxReady s.cfg s.uart) o.key o.data)
      { s with seq := ⟨s.seq.script, s.seq.line, if j + 1 < env.length then j + 2 else 0⟩ }

/-- R61. An EXPECT of `data` goes on exactly when the last read returned that value; else the test has failed, which the
model makes a fault (its choice, notes/assumptions/20). -/
def Obligations.ExpectStopsFailedTest : Prop :=
  ∀ (s : State) (v : Word), s.seq.script[s.seq.line]? = some (.expect (.data v)) →
    (s.port.data = v → step s = .next { s with seq := ⟨s.seq.script, s.seq.line + 1, 0⟩ })
    ∧ (s.port.data ≠ v → step s = .fault (.expectFailed s.seq.line))

/-- R43. A script of operations performs them one after the other in its order: its run of as many steps ends where
performing them in turn ends, with the position after its last line (the one column is the model's choice,
notes/assumptions/1). -/
def Obligations.ScriptPerformsItsOperations : Prop :=
  ∀ (s t : State) (os : List Op), performAll os s = .next t →
    Host.Core.run Sys2Proof.core os.length { s with seq := ⟨os.map .op, 0, 0⟩ }
      = .next { t with seq := ⟨os.map .op, os.length, 0⟩ }

/-- R61. `TICKS n, k` expands to k lines `TICK n`. That n and k may be names, given by `.equ` or R62's, and not numbers only,
is the model's choice (DESIGN CHOICE: notes/assumptions/29). -/
def Obligations.TicksExpandToTickLines : Prop :=
  ∀ (c : Config) (names : List (String × Nat)) (n k : Operand) (v : Word) (count : Nat),
    operandValue c names n = some v.toNat → operandValue c names k = some count →
    linesOf c names (.env (.ticks n k)) = some (List.replicate count (.op ⟨mkKey 1#4 0#1 0#2 0#1 v, 0#32⟩))
    ∧ linesOf c names (.env (.tick n)) = some [.op ⟨mkKey 1#4 0#1 0#2 0#1 v, 0#32⟩]

/-- The invariant of the state (R4, R7, R10 to R12, R19, R20, R69, R88) is kept by every step. -/
def Obligations.StepKeepsInvariant : Prop :=
  ∀ s t : State, s.Inv → step s = .next t → t.Inv

/-- The invariant holds at reset, under the model's default configuration (notes/assumptions/4 and 5). -/
def Obligations.ResetMeetsInvariant : Prop := State.reset.Inv

/-- R7, R10, R20. No step writes the configuration, the entry-point register or the binding of the endpoint, or changes the
number of timers. -/
def Obligations.CompositionIsNeverRewritten : Prop :=
  ∀ s t : State, step s = .next t →
    t.cfg = s.cfg ∧ t.entry = s.entry ∧ t.ep.connected = s.ep.connected ∧ t.timers.length = s.timers.length

/-- R20, R21, R22, R23. No step takes a byte out of the stream or an entry out of a log, or clears `perr`; only a TX write
extends the stream. -/
def Obligations.RecordsOnlyGrow : Prop :=
  (∀ s t : State, step s = .next t →
    s.ep.out <+: t.ep.out ∧ s.ilog <+: t.ilog ∧ s.rlog <+: t.rlog ∧ (s.perr = true → t.perr = true))
  ∧ ∀ (s t : State) (i : Instr), exec i s = .next t → t.ep.out ≠ s.ep.out → ∃ d, i = .uartWrTx d

/-- R23, R93. `perr` becomes true by a delivery while RX_READY is 1, and by nothing else. -/
def Obligations.OnlyOverDeliveryFaultsRun : Prop :=
  ∀ (s t : State) (i : Instr), exec i s = .next t → s.faulted = false → t.faulted = true →
    isDelivery i = true ∧ rxReady s.cfg s.uart = true
end

