-- ==== Sys2Proof/Laws/Keys.lean ====
section
/-! SUPPORT. The fields of a key and the key of its fields; sizes and directions and their codes. -/

namespace Sys2Proof.Machine

/-- A key as a number: each field at its place (R47). -/
theorem mkKey_toNat (kind : BitVec 4) (rsv : BitVec 1) (sz : BitVec 2) (w : BitVec 1) (a : Addr) :
    (mkKey kind rsv sz w a).toNat =
      kind.toNat * 2 ^ 36 + rsv.toNat * 2 ^ 35 + sz.toNat * 2 ^ 33 + w.toNat * 2 ^ 32 + a.toNat := by
  have happ : ∀ {m n : Nat} (x : BitVec m) (y : BitVec n), (x ++ y).toNat = x.toNat * 2 ^ n + y.toNat := by
    intro m n x y
    rw [BitVec.toNat_append, ← Nat.shiftLeft_add_eq_or_of_lt y.isLt, Nat.shiftLeft_eq]
  show (kind ++ rsv ++ sz ++ w ++ a).toNat = _
  simp only [happ]
  omega

theorem keyKind_toNat (k : Key) : (keyKind k).toNat = k.toNat / 2 ^ 36 := by
  have := k.isLt
  simp only [keyKind, BitVec.extractLsb'_toNat, Nat.shiftRight_eq_div_pow]
  omega

theorem keyRsv_toNat (k : Key) : (keyRsv k).toNat = k.toNat / 2 ^ 35 % 2 := by
  simp only [keyRsv, BitVec.extractLsb'_toNat, Nat.shiftRight_eq_div_pow]

theorem keySz_toNat (k : Key) : (keySz k).toNat = k.toNat / 2 ^ 33 % 4 := by
  simp only [keySz, BitVec.extractLsb'_toNat, Nat.shiftRight_eq_div_pow]

theorem keyW_toNat (k : Key) : (keyW k).toNat = k.toNat / 2 ^ 32 % 2 := by
  simp only [keyW, BitVec.extractLsb'_toNat, Nat.shiftRight_eq_div_pow]

theorem keyA_toNat (k : Key) : (keyA k).toNat = k.toNat % 2 ^ 32 := by
  simp only [keyA, BitVec.extractLsb'_toNat, Nat.shiftRight_zero]

section Fields
variable (kind : BitVec 4) (rsv : BitVec 1) (sz : BitVec 2) (w : BitVec 1) (a : Addr)

@[simp] theorem keyKind_mkKey : keyKind (mkKey kind rsv sz w a) = kind := by
  have h1 := rsv.isLt; have h2 := sz.isLt; have h3 := w.isLt; have h4 := a.isLt
  apply BitVec.eq_of_toNat_eq
  rw [keyKind_toNat, mkKey_toNat]; omega

@[simp] theorem keyRsv_mkKey : keyRsv (mkKey kind rsv sz w a) = rsv := by
  have h1 := rsv.isLt; have h2 := sz.isLt; have h3 := w.isLt; have h4 := a.isLt
  apply BitVec.eq_of_toNat_eq
  rw [keyRsv_toNat, mkKey_toNat]; omega

@[simp] theorem keySz_mkKey : keySz (mkKey kind rsv sz w a) = sz := by
  have h1 := rsv.isLt; have h2 := sz.isLt; have h3 := w.isLt; have h4 := a.isLt
  apply BitVec.eq_of_toNat_eq
  rw [keySz_toNat, mkKey_toNat]; omega

@[simp] theorem keyW_mkKey : keyW (mkKey kind rsv sz w a) = w := by
  have h1 := rsv.isLt; have h2 := sz.isLt; have h3 := w.isLt; have h4 := a.isLt
  apply BitVec.eq_of_toNat_eq
  rw [keyW_toNat, mkKey_toNat]; omega

@[simp] theorem keyA_mkKey : keyA (mkKey kind rsv sz w a) = a := by
  have h4 := a.isLt
  apply BitVec.eq_of_toNat_eq
  rw [keyA_toNat, mkKey_toNat]; omega

end Fields

/-- A key is the key of its fields. -/
theorem mkKey_fields (k : Key) : mkKey (keyKind k) (keyRsv k) (keySz k) (keyW k) (keyA k) = k := by
  have := k.isLt
  apply BitVec.eq_of_toNat_eq
  rw [mkKey_toNat, keyKind_toNat, keyRsv_toNat, keySz_toNat, keyW_toNat, keyA_toNat]
  omega

@[simp] theorem sizeOfSz_szOfSize (z : Size) : sizeOfSz (szOfSize z) = z := by cases z <;> rfl

@[simp] theorem szOfSize_sizeOfSz (z : BitVec 2) : szOfSize (sizeOfSz z) = z := by
  revert z; decide

@[simp] theorem xferOfW_wOfXfer (x : Xfer) : xferOfW (wOfXfer x) (dataOfXfer x) = x := by cases x <;> rfl

@[simp] theorem wOfXfer_xferOfW (w : BitVec 1) (d : Word) : wOfXfer (xferOfW w d) = w := by
  revert w; simp only [xferOfW]; intro w
  have : w = 0#1 ∨ w = 1#1 := by revert w; decide
  rcases this with rfl | rfl <;> rfl

/-- `size = 1 << SZ` (R49). -/
theorem sizeBytes_eq (z : Size) :
    sizeBytes z = (match z with | .b1 => 1 | .b2 => 2 | .b4 => 4 | .b8 => 8) := by cases z <;> rfl

end Sys2Proof.Machine
end

