-- ==== Sys2Proof/Laws/Mux.lean ====
section
/-! SUPPORT. What the routing function's answer says of the address (R29), and what R4 says of the regions. -/

namespace Sys2Proof.Machine

theorem Region.holds_iff (r : Region) (a : Nat) : r.holds a = true ↔ r.lo ≤ a ∧ a < r.hi := by
  simp [Region.holds]

/-- Two regions that are apart hold no common address. -/
theorem Region.apart_not_both {r q : Region} {a : Nat} (h : r.apart q = true) (hr : r.holds a = true) :
    q.holds a = false := by
  rw [Region.holds_iff] at hr
  simp only [Region.apart, decide_eq_true_eq] at h
  cases hq : q.holds a
  · rfl
  · rw [Region.holds_iff] at hq; omega

/-- The address a target is answered for lies in the target's region, and no region tested earlier holds it (R29). -/
theorem route_spec (c : Config) (a : Addr) :
    match route c a with
    | .ram => (ramRegion c).holds a.toNat = true
    | .timer n => n < c.numTimers ∧ (timerRegion c n).holds a.toNat = true
    | .uart => (uartRegion c).holds a.toNat = true
    | .rom k => romPresent c k = true ∧ (romRegion c k).holds a.toNat = true
    | .unmapped =>
      (ramRegion c).holds a.toNat = false ∧ (∀ n < c.numTimers, (timerRegion c n).holds a.toNat = false)
      ∧ (uartRegion c).holds a.toNat = false
      ∧ ∀ k, romPresent c k = true → (romRegion c k).holds a.toNat = false := by
  unfold route
  by_cases h1 : (ramRegion c).holds a.toNat = true
  · simp [h1]
  rw [if_neg h1]
  cases h2 : (List.range c.numTimers).find? (fun n => (timerRegion c n).holds a.toNat) with
  | some n =>
    have hp := List.find?_some h2
    have hm := List.mem_of_find?_eq_some h2
    exact ⟨List.mem_range.mp hm, hp⟩
  | none =>
    have hn : ∀ n < c.numTimers, (timerRegion c n).holds a.toNat = false := by
      intro n hn
      have := List.find?_eq_none.mp h2 n (List.mem_range.mpr hn)
      simpa using this
    by_cases h3 : (uartRegion c).holds a.toNat = true
    · simp [h3]
    by_cases h4 : (romPresent c .rom0 && (romRegion c .rom0).holds a.toNat) = true
    · simp only [h3, h4]; simp at h4; simp [h4]
    by_cases h5 : (romPresent c .rom1 && (romRegion c .rom1).holds a.toNat) = true
    · simp only [h3, h4, h5]; simp at h5; simp [h5]
    simp only [h3, h4, h5]
    refine ⟨by simpa using h1, hn, by simp, ?_⟩
    intro k hk
    cases k
    · simpa [hk] using h4
    · simpa [hk] using h5

/-- The parameter conditions of R4 and the model's two, one by one. -/
theorem config_wf_iff (c : Config) : c.wf = true ↔
    c.timerWin ≤ c.timerStride ∧ c.timerControlOff ≠ c.timerValueOff
    ∧ (c.timerControlOff % 4 = 0 ∧ c.timerControlOff < c.timerWin)
    ∧ (c.timerValueOff % 4 = 0 ∧ c.timerValueOff < c.timerWin)
    ∧ (c.uartTxOff ≠ c.uartRxOff ∧ c.uartTxOff ≠ c.uartStOff ∧ c.uartRxOff ≠ c.uartStOff)
    ∧ (c.uartTxOff % 4 = 0 ∧ c.uartTxOff < c.uartWin) ∧ (c.uartRxOff % 4 = 0 ∧ c.uartRxOff < c.uartWin)
    ∧ (c.uartStOff % 4 = 0 ∧ c.uartStOff < c.uartWin)
    ∧ (c.timerBase % 4 = 0 ∧ c.uartBase % 4 = 0 ∧ c.rom0Base % 4 = 0 ∧ c.rom1Base % 4 = 0)
    ∧ (regionTable c).Pairwise (fun r q => r.apart q = true)
    ∧ (c.addrWidth = 32 ∧ c.dataWidth = 32) ∧ c.rxReadyBit ≠ c.txReadyBit := by
  simp only [Config.wf, Bool.and_eq_true, decide_eq_true_eq, and_assoc]

/-- With R8's numbers, an offset in the register file of a timer lies in its window (R8). -/
theorem timerRegCount_le {c : Config} {off : Nat} (hs : c.regShift = 2) (h : inRegFile c (timerRegCount c) off = true) :
    off < c.timerWin := by
  simp only [inRegFile, regIndex, timerRegCount, hs, Nat.shiftRight_eq_div_pow, decide_eq_true_eq] at h
  omega

/-- In a legal configuration an address exists when it has room in a key (R27, R47). -/
theorem addrExists_iff {c : Config} (h : c.wf = true) (a : Nat) : addrExists c a = true ↔ a < 2 ^ 32 := by
  simp only [addrExists, ((config_wf_iff c).mp h).2.2.2.2.2.2.2.2.2.2.1.1, decide_eq_true_eq]

end Sys2Proof.Machine
end

