-- ==== Sys2Proof/Laws/State.lean ====
section
/-! SUPPORT. One lemma per field per update of the state, so that no proof unfolds a record update. The response port after
`respond`, `busError` and `forward` depends on the direction and has its lemmas at the end. -/

namespace Sys2Proof.Machine

@[simp] theorem State.readOk_cfg (s : State) (d : Word) : (s.readOk d).cfg = s.cfg := rfl
@[simp] theorem State.readOk_timers (s : State) (d : Word) : (s.readOk d).timers = s.timers := rfl
@[simp] theorem State.readOk_uart (s : State) (d : Word) : (s.readOk d).uart = s.uart := rfl
@[simp] theorem State.readOk_ep (s : State) (d : Word) : (s.readOk d).ep = s.ep := rfl
@[simp] theorem State.readOk_ilog (s : State) (d : Word) : (s.readOk d).ilog = s.ilog := rfl
@[simp] theorem State.readOk_rlog (s : State) (d : Word) : (s.readOk d).rlog = s.rlog := rfl
@[simp] theorem State.readOk_perr (s : State) (d : Word) : (s.readOk d).perr = s.perr := rfl
@[simp] theorem State.readOk_entry (s : State) (d : Word) : (s.readOk d).entry = s.entry := rfl
@[simp] theorem State.readOk_port (s : State) (d : Word) : (s.readOk d).port = { s.port with data := d, resp := .ok } := rfl
@[simp] theorem State.readOk_fwd (s : State) (d : Word) : (s.readOk d).fwd = s.fwd := rfl
@[simp] theorem State.readOk_draw (s : State) (d : Word) : (s.readOk d).draw = s.draw := rfl
@[simp] theorem State.readOk_seq (s : State) (d : Word) : (s.readOk d).seq = s.seq := rfl

@[simp] theorem State.writeOk_cfg (s : State) : (s.writeOk).cfg = s.cfg := rfl
@[simp] theorem State.writeOk_timers (s : State) : (s.writeOk).timers = s.timers := rfl
@[simp] theorem State.writeOk_uart (s : State) : (s.writeOk).uart = s.uart := rfl
@[simp] theorem State.writeOk_ep (s : State) : (s.writeOk).ep = s.ep := rfl
@[simp] theorem State.writeOk_ilog (s : State) : (s.writeOk).ilog = s.ilog := rfl
@[simp] theorem State.writeOk_rlog (s : State) : (s.writeOk).rlog = s.rlog := rfl
@[simp] theorem State.writeOk_perr (s : State) : (s.writeOk).perr = s.perr := rfl
@[simp] theorem State.writeOk_entry (s : State) : (s.writeOk).entry = s.entry := rfl
@[simp] theorem State.writeOk_port (s : State) : (s.writeOk).port = { s.port with resp := .ok } := rfl
@[simp] theorem State.writeOk_fwd (s : State) : (s.writeOk).fwd = s.fwd := rfl
@[simp] theorem State.writeOk_draw (s : State) : (s.writeOk).draw = s.draw := rfl
@[simp] theorem State.writeOk_seq (s : State) : (s.writeOk).seq = s.seq := rfl

@[simp] theorem State.respond_cfg (s : State) (x : Xfer) (d : Word) (r : Resp) : (s.respond x d r).cfg = s.cfg := by cases x <;> rfl
@[simp] theorem State.respond_timers (s : State) (x : Xfer) (d : Word) (r : Resp) : (s.respond x d r).timers = s.timers := by cases x <;> rfl
@[simp] theorem State.respond_uart (s : State) (x : Xfer) (d : Word) (r : Resp) : (s.respond x d r).uart = s.uart := by cases x <;> rfl
@[simp] theorem State.respond_ep (s : State) (x : Xfer) (d : Word) (r : Resp) : (s.respond x d r).ep = s.ep := by cases x <;> rfl
@[simp] theorem State.respond_ilog (s : State) (x : Xfer) (d : Word) (r : Resp) : (s.respond x d r).ilog = s.ilog := by cases x <;> rfl
@[simp] theorem State.respond_rlog (s : State) (x : Xfer) (d : Word) (r : Resp) : (s.respond x d r).rlog = s.rlog := by cases x <;> rfl
@[simp] theorem State.respond_perr (s : State) (x : Xfer) (d : Word) (r : Resp) : (s.respond x d r).perr = s.perr := by cases x <;> rfl
@[simp] theorem State.respond_entry (s : State) (x : Xfer) (d : Word) (r : Resp) : (s.respond x d r).entry = s.entry := by cases x <;> rfl
@[simp] theorem State.respond_fwd (s : State) (x : Xfer) (d : Word) (r : Resp) : (s.respond x d r).fwd = s.fwd := by cases x <;> rfl
@[simp] theorem State.respond_draw (s : State) (x : Xfer) (d : Word) (r : Resp) : (s.respond x d r).draw = s.draw := by cases x <;> rfl
@[simp] theorem State.respond_seq (s : State) (x : Xfer) (d : Word) (r : Resp) : (s.respond x d r).seq = s.seq := by cases x <;> rfl

@[simp] theorem State.logInvalid_cfg (s : State) (dev : Device) (off : Nat) (dir : Dir) : (s.logInvalid dev off dir).cfg = s.cfg := rfl
@[simp] theorem State.logInvalid_timers (s : State) (dev : Device) (off : Nat) (dir : Dir) : (s.logInvalid dev off dir).timers = s.timers := rfl
@[simp] theorem State.logInvalid_uart (s : State) (dev : Device) (off : Nat) (dir : Dir) : (s.logInvalid dev off dir).uart = s.uart := rfl
@[simp] theorem State.logInvalid_ep (s : State) (dev : Device) (off : Nat) (dir : Dir) : (s.logInvalid dev off dir).ep = s.ep := rfl
@[simp] theorem State.logInvalid_ilog (s : State) (dev : Device) (off : Nat) (dir : Dir) : (s.logInvalid dev off dir).ilog = s.ilog ++ [⟨dev, off, dir⟩] := rfl
@[simp] theorem State.logInvalid_rlog (s : State) (dev : Device) (off : Nat) (dir : Dir) : (s.logInvalid dev off dir).rlog = s.rlog := rfl
@[simp] theorem State.logInvalid_perr (s : State) (dev : Device) (off : Nat) (dir : Dir) : (s.logInvalid dev off dir).perr = s.perr := rfl
@[simp] theorem State.logInvalid_entry (s : State) (dev : Device) (off : Nat) (dir : Dir) : (s.logInvalid dev off dir).entry = s.entry := rfl
@[simp] theorem State.logInvalid_port (s : State) (dev : Device) (off : Nat) (dir : Dir) : (s.logInvalid dev off dir).port = s.port := rfl
@[simp] theorem State.logInvalid_fwd (s : State) (dev : Device) (off : Nat) (dir : Dir) : (s.logInvalid dev off dir).fwd = s.fwd := rfl
@[simp] theorem State.logInvalid_draw (s : State) (dev : Device) (off : Nat) (dir : Dir) : (s.logInvalid dev off dir).draw = s.draw := rfl
@[simp] theorem State.logInvalid_seq (s : State) (dev : Device) (off : Nat) (dir : Dir) : (s.logInvalid dev off dir).seq = s.seq := rfl

@[simp] theorem State.invalidRead_cfg (s : State) (dev : Device) (off : Nat) : (s.invalidRead dev off).cfg = s.cfg := rfl
@[simp] theorem State.invalidRead_timers (s : State) (dev : Device) (off : Nat) : (s.invalidRead dev off).timers = s.timers := rfl
@[simp] theorem State.invalidRead_uart (s : State) (dev : Device) (off : Nat) : (s.invalidRead dev off).uart = s.uart := rfl
@[simp] theorem State.invalidRead_ep (s : State) (dev : Device) (off : Nat) : (s.invalidRead dev off).ep = s.ep := rfl
@[simp] theorem State.invalidRead_ilog (s : State) (dev : Device) (off : Nat) : (s.invalidRead dev off).ilog = s.ilog ++ [⟨dev, off, .read⟩] := rfl
@[simp] theorem State.invalidRead_rlog (s : State) (dev : Device) (off : Nat) : (s.invalidRead dev off).rlog = s.rlog := rfl
@[simp] theorem State.invalidRead_perr (s : State) (dev : Device) (off : Nat) : (s.invalidRead dev off).perr = s.perr := rfl
@[simp] theorem State.invalidRead_entry (s : State) (dev : Device) (off : Nat) : (s.invalidRead dev off).entry = s.entry := rfl
@[simp] theorem State.invalidRead_port (s : State) (dev : Device) (off : Nat) : (s.invalidRead dev off).port = { s.port with data := zeroData, resp := .ok } := rfl
@[simp] theorem State.invalidRead_fwd (s : State) (dev : Device) (off : Nat) : (s.invalidRead dev off).fwd = s.fwd := rfl
@[simp] theorem State.invalidRead_draw (s : State) (dev : Device) (off : Nat) : (s.invalidRead dev off).draw = s.draw := rfl
@[simp] theorem State.invalidRead_seq (s : State) (dev : Device) (off : Nat) : (s.invalidRead dev off).seq = s.seq := rfl

@[simp] theorem State.invalidWrite_cfg (s : State) (dev : Device) (off : Nat) : (s.invalidWrite dev off).cfg = s.cfg := rfl
@[simp] theorem State.invalidWrite_timers (s : State) (dev : Device) (off : Nat) : (s.invalidWrite dev off).timers = s.timers := rfl
@[simp] theorem State.invalidWrite_uart (s : State) (dev : Device) (off : Nat) : (s.invalidWrite dev off).uart = s.uart := rfl
@[simp] theorem State.invalidWrite_ep (s : State) (dev : Device) (off : Nat) : (s.invalidWrite dev off).ep = s.ep := rfl
@[simp] theorem State.invalidWrite_ilog (s : State) (dev : Device) (off : Nat) : (s.invalidWrite dev off).ilog = s.ilog ++ [⟨dev, off, .write⟩] := rfl
@[simp] theorem State.invalidWrite_rlog (s : State) (dev : Device) (off : Nat) : (s.invalidWrite dev off).rlog = s.rlog := rfl
@[simp] theorem State.invalidWrite_perr (s : State) (dev : Device) (off : Nat) : (s.invalidWrite dev off).perr = s.perr := rfl
@[simp] theorem State.invalidWrite_entry (s : State) (dev : Device) (off : Nat) : (s.invalidWrite dev off).entry = s.entry := rfl
@[simp] theorem State.invalidWrite_port (s : State) (dev : Device) (off : Nat) : (s.invalidWrite dev off).port = { s.port with resp := .ok } := rfl
@[simp] theorem State.invalidWrite_fwd (s : State) (dev : Device) (off : Nat) : (s.invalidWrite dev off).fwd = s.fwd := rfl
@[simp] theorem State.invalidWrite_draw (s : State) (dev : Device) (off : Nat) : (s.invalidWrite dev off).draw = s.draw := rfl
@[simp] theorem State.invalidWrite_seq (s : State) (dev : Device) (off : Nat) : (s.invalidWrite dev off).seq = s.seq := rfl

@[simp] theorem State.busError_cfg (s : State) (kind : RejectKind) (x : Access) : (s.busError kind x).cfg = s.cfg := by
  rcases x with ⟨_, _, _ | _⟩ <;> rfl
@[simp] theorem State.busError_timers (s : State) (kind : RejectKind) (x : Access) : (s.busError kind x).timers = s.timers := by
  rcases x with ⟨_, _, _ | _⟩ <;> rfl
@[simp] theorem State.busError_uart (s : State) (kind : RejectKind) (x : Access) : (s.busError kind x).uart = s.uart := by
  rcases x with ⟨_, _, _ | _⟩ <;> rfl
@[simp] theorem State.busError_ep (s : State) (kind : RejectKind) (x : Access) : (s.busError kind x).ep = s.ep := by
  rcases x with ⟨_, _, _ | _⟩ <;> rfl
@[simp] theorem State.busError_ilog (s : State) (kind : RejectKind) (x : Access) : (s.busError kind x).ilog = s.ilog := by
  rcases x with ⟨_, _, _ | _⟩ <;> rfl
@[simp] theorem State.busError_rlog (s : State) (kind : RejectKind) (x : Access) : (s.busError kind x).rlog = s.rlog ++ [⟨x.addr, x.size, dirOfXfer x.xfer, kind⟩] := by
  rcases x with ⟨_, _, _ | _⟩ <;> rfl
@[simp] theorem State.busError_perr (s : State) (kind : RejectKind) (x : Access) : (s.busError kind x).perr = s.perr := by
  rcases x with ⟨_, _, _ | _⟩ <;> rfl
@[simp] theorem State.busError_entry (s : State) (kind : RejectKind) (x : Access) : (s.busError kind x).entry = s.entry := by
  rcases x with ⟨_, _, _ | _⟩ <;> rfl
@[simp] theorem State.busError_fwd (s : State) (kind : RejectKind) (x : Access) : (s.busError kind x).fwd = s.fwd := by
  rcases x with ⟨_, _, _ | _⟩ <;> rfl
@[simp] theorem State.busError_draw (s : State) (kind : RejectKind) (x : Access) : (s.busError kind x).draw = s.draw := by
  rcases x with ⟨_, _, _ | _⟩ <;> rfl
@[simp] theorem State.busError_seq (s : State) (kind : RejectKind) (x : Access) : (s.busError kind x).seq = s.seq := by
  rcases x with ⟨_, _, _ | _⟩ <;> rfl

@[simp] theorem State.protocolViolation_cfg (s : State) (b : Byte) : (s.protocolViolation b).cfg = s.cfg := rfl
@[simp] theorem State.protocolViolation_timers (s : State) (b : Byte) : (s.protocolViolation b).timers = s.timers := rfl
@[simp] theorem State.protocolViolation_uart (s : State) (b : Byte) : (s.protocolViolation b).uart = s.uart := rfl
@[simp] theorem State.protocolViolation_ep (s : State) (b : Byte) : (s.protocolViolation b).ep = s.ep := rfl
@[simp] theorem State.protocolViolation_ilog (s : State) (b : Byte) : (s.protocolViolation b).ilog = s.ilog := rfl
@[simp] theorem State.protocolViolation_rlog (s : State) (b : Byte) : (s.protocolViolation b).rlog = s.rlog := rfl
@[simp] theorem State.protocolViolation_perr (s : State) (b : Byte) : (s.protocolViolation b).perr = true := rfl
@[simp] theorem State.protocolViolation_entry (s : State) (b : Byte) : (s.protocolViolation b).entry = s.entry := rfl
@[simp] theorem State.protocolViolation_port (s : State) (b : Byte) : (s.protocolViolation b).port = s.port := rfl
@[simp] theorem State.protocolViolation_fwd (s : State) (b : Byte) : (s.protocolViolation b).fwd = s.fwd := rfl
@[simp] theorem State.protocolViolation_draw (s : State) (b : Byte) : (s.protocolViolation b).draw = s.draw := rfl
@[simp] theorem State.protocolViolation_seq (s : State) (b : Byte) : (s.protocolViolation b).seq = s.seq := rfl

@[simp] theorem State.forward_cfg (s : State) (m : MemTarget) (x : Access) : (s.forward m x).cfg = s.cfg := by
  rcases x with ⟨_, _, _ | _⟩ <;> rfl
@[simp] theorem State.forward_timers (s : State) (m : MemTarget) (x : Access) : (s.forward m x).timers = s.timers := by
  rcases x with ⟨_, _, _ | _⟩ <;> rfl
@[simp] theorem State.forward_uart (s : State) (m : MemTarget) (x : Access) : (s.forward m x).uart = s.uart := by
  rcases x with ⟨_, _, _ | _⟩ <;> rfl
@[simp] theorem State.forward_ep (s : State) (m : MemTarget) (x : Access) : (s.forward m x).ep = s.ep := by
  rcases x with ⟨_, _, _ | _⟩ <;> rfl
@[simp] theorem State.forward_ilog (s : State) (m : MemTarget) (x : Access) : (s.forward m x).ilog = s.ilog := by
  rcases x with ⟨_, _, _ | _⟩ <;> rfl
@[simp] theorem State.forward_rlog (s : State) (m : MemTarget) (x : Access) : (s.forward m x).rlog = s.rlog := by
  rcases x with ⟨_, _, _ | _⟩ <;> rfl
@[simp] theorem State.forward_perr (s : State) (m : MemTarget) (x : Access) : (s.forward m x).perr = s.perr := by
  rcases x with ⟨_, _, _ | _⟩ <;> rfl
@[simp] theorem State.forward_entry (s : State) (m : MemTarget) (x : Access) : (s.forward m x).entry = s.entry := by
  rcases x with ⟨_, _, _ | _⟩ <;> rfl
@[simp] theorem State.forward_fwd (s : State) (m : MemTarget) (x : Access) : (s.forward m x).fwd = s.fwd ++ [⟨m, x⟩] := by
  rcases x with ⟨_, _, _ | _⟩ <;> rfl
@[simp] theorem State.forward_draw (s : State) (m : MemTarget) (x : Access) : (s.forward m x).draw = s.draw + 1 := by
  rcases x with ⟨_, _, _ | _⟩ <;> rfl
@[simp] theorem State.forward_seq (s : State) (m : MemTarget) (x : Access) : (s.forward m x).seq = s.seq := by
  rcases x with ⟨_, _, _ | _⟩ <;> rfl

@[simp] theorem State.transmit_cfg (s : State) (d : Word) : (s.transmit d).cfg = s.cfg := rfl
@[simp] theorem State.transmit_timers (s : State) (d : Word) : (s.transmit d).timers = s.timers := rfl
@[simp] theorem State.transmit_uart (s : State) (d : Word) : (s.transmit d).uart = { s.uart with tx := Config.txAfterWrite d s.draw } := rfl
@[simp] theorem State.transmit_ep (s : State) (d : Word) : (s.transmit d).ep = s.ep.emit (txByte d) := rfl
@[simp] theorem State.transmit_ilog (s : State) (d : Word) : (s.transmit d).ilog = s.ilog := rfl
@[simp] theorem State.transmit_rlog (s : State) (d : Word) : (s.transmit d).rlog = s.rlog := rfl
@[simp] theorem State.transmit_perr (s : State) (d : Word) : (s.transmit d).perr = s.perr := rfl
@[simp] theorem State.transmit_entry (s : State) (d : Word) : (s.transmit d).entry = s.entry := rfl
@[simp] theorem State.transmit_port (s : State) (d : Word) : (s.transmit d).port = s.port := rfl
@[simp] theorem State.transmit_fwd (s : State) (d : Word) : (s.transmit d).fwd = s.fwd := rfl
@[simp] theorem State.transmit_draw (s : State) (d : Word) : (s.transmit d).draw = s.draw + 1 := rfl
@[simp] theorem State.transmit_seq (s : State) (d : Word) : (s.transmit d).seq = s.seq := rfl

@[simp] theorem State.consumeRx_cfg (s : State) : (s.consumeRx).cfg = s.cfg := rfl
@[simp] theorem State.consumeRx_timers (s : State) : (s.consumeRx).timers = s.timers := rfl
@[simp] theorem State.consumeRx_uart (s : State) : (s.consumeRx).uart = clearRxReady s.cfg s.uart := rfl
@[simp] theorem State.consumeRx_ep (s : State) : (s.consumeRx).ep = s.ep := rfl
@[simp] theorem State.consumeRx_ilog (s : State) : (s.consumeRx).ilog = s.ilog := rfl
@[simp] theorem State.consumeRx_rlog (s : State) : (s.consumeRx).rlog = s.rlog := rfl
@[simp] theorem State.consumeRx_perr (s : State) : (s.consumeRx).perr = s.perr := rfl
@[simp] theorem State.consumeRx_entry (s : State) : (s.consumeRx).entry = s.entry := rfl
@[simp] theorem State.consumeRx_port (s : State) : (s.consumeRx).port = { s.port with data := s.uart.rx, resp := .ok } := rfl
@[simp] theorem State.consumeRx_fwd (s : State) : (s.consumeRx).fwd = s.fwd := rfl
@[simp] theorem State.consumeRx_draw (s : State) : (s.consumeRx).draw = s.draw := rfl
@[simp] theorem State.consumeRx_seq (s : State) : (s.consumeRx).seq = s.seq := rfl

@[simp] theorem State.acceptByte_cfg (s : State) (b : Byte) : (s.acceptByte b).cfg = s.cfg := rfl
@[simp] theorem State.acceptByte_timers (s : State) (b : Byte) : (s.acceptByte b).timers = s.timers := rfl
@[simp] theorem State.acceptByte_uart (s : State) (b : Byte) : (s.acceptByte b).uart = setRxReady s.cfg { s.uart with rx := rxWord b } := rfl
@[simp] theorem State.acceptByte_ep (s : State) (b : Byte) : (s.acceptByte b).ep = s.ep := rfl
@[simp] theorem State.acceptByte_ilog (s : State) (b : Byte) : (s.acceptByte b).ilog = s.ilog := rfl
@[simp] theorem State.acceptByte_rlog (s : State) (b : Byte) : (s.acceptByte b).rlog = s.rlog := rfl
@[simp] theorem State.acceptByte_perr (s : State) (b : Byte) : (s.acceptByte b).perr = s.perr := rfl
@[simp] theorem State.acceptByte_entry (s : State) (b : Byte) : (s.acceptByte b).entry = s.entry := rfl
@[simp] theorem State.acceptByte_port (s : State) (b : Byte) : (s.acceptByte b).port = s.port := rfl
@[simp] theorem State.acceptByte_fwd (s : State) (b : Byte) : (s.acceptByte b).fwd = s.fwd := rfl
@[simp] theorem State.acceptByte_draw (s : State) (b : Byte) : (s.acceptByte b).draw = s.draw := rfl
@[simp] theorem State.acceptByte_seq (s : State) (b : Byte) : (s.acceptByte b).seq = s.seq := rfl

@[simp] theorem State.setTimer_cfg (s : State) (n : Nat) (u : Timer) : (s.setTimer n u).cfg = s.cfg := rfl
@[simp] theorem State.setTimer_timers (s : State) (n : Nat) (u : Timer) : (s.setTimer n u).timers = s.timers.set n u := rfl
@[simp] theorem State.setTimer_uart (s : State) (n : Nat) (u : Timer) : (s.setTimer n u).uart = s.uart := rfl
@[simp] theorem State.setTimer_ep (s : State) (n : Nat) (u : Timer) : (s.setTimer n u).ep = s.ep := rfl
@[simp] theorem State.setTimer_ilog (s : State) (n : Nat) (u : Timer) : (s.setTimer n u).ilog = s.ilog := rfl
@[simp] theorem State.setTimer_rlog (s : State) (n : Nat) (u : Timer) : (s.setTimer n u).rlog = s.rlog := rfl
@[simp] theorem State.setTimer_perr (s : State) (n : Nat) (u : Timer) : (s.setTimer n u).perr = s.perr := rfl
@[simp] theorem State.setTimer_entry (s : State) (n : Nat) (u : Timer) : (s.setTimer n u).entry = s.entry := rfl
@[simp] theorem State.setTimer_port (s : State) (n : Nat) (u : Timer) : (s.setTimer n u).port = s.port := rfl
@[simp] theorem State.setTimer_fwd (s : State) (n : Nat) (u : Timer) : (s.setTimer n u).fwd = s.fwd := rfl
@[simp] theorem State.setTimer_draw (s : State) (n : Nat) (u : Timer) : (s.setTimer n u).draw = s.draw := rfl
@[simp] theorem State.setTimer_seq (s : State) (n : Nat) (u : Timer) : (s.setTimer n u).seq = s.seq := rfl

@[simp] theorem State.resetBlock_cfg (s : State) : (s.resetBlock).cfg = s.cfg := rfl
@[simp] theorem State.resetBlock_timers (s : State) : (s.resetBlock).timers = s.timers.map resetTimer := rfl
@[simp] theorem State.resetBlock_uart (s : State) : (s.resetBlock).uart = resetUart s.cfg s.uart := rfl
@[simp] theorem State.resetBlock_ep (s : State) : (s.resetBlock).ep = s.ep := rfl
@[simp] theorem State.resetBlock_ilog (s : State) : (s.resetBlock).ilog = s.ilog := rfl
@[simp] theorem State.resetBlock_rlog (s : State) : (s.resetBlock).rlog = s.rlog := rfl
@[simp] theorem State.resetBlock_perr (s : State) : (s.resetBlock).perr = s.perr := rfl
@[simp] theorem State.resetBlock_entry (s : State) : (s.resetBlock).entry = s.entry := rfl
@[simp] theorem State.resetBlock_port (s : State) : (s.resetBlock).port = s.port := rfl
@[simp] theorem State.resetBlock_fwd (s : State) : (s.resetBlock).fwd = s.fwd := rfl
@[simp] theorem State.resetBlock_draw (s : State) : (s.resetBlock).draw = s.draw := rfl
@[simp] theorem State.resetBlock_seq (s : State) : (s.resetBlock).seq = s.seq := rfl

@[simp] theorem State.goto_cfg (s : State) (line sub : Nat) : (s.goto line sub).cfg = s.cfg := rfl
@[simp] theorem State.goto_timers (s : State) (line sub : Nat) : (s.goto line sub).timers = s.timers := rfl
@[simp] theorem State.goto_uart (s : State) (line sub : Nat) : (s.goto line sub).uart = s.uart := rfl
@[simp] theorem State.goto_ep (s : State) (line sub : Nat) : (s.goto line sub).ep = s.ep := rfl
@[simp] theorem State.goto_ilog (s : State) (line sub : Nat) : (s.goto line sub).ilog = s.ilog := rfl
@[simp] theorem State.goto_rlog (s : State) (line sub : Nat) : (s.goto line sub).rlog = s.rlog := rfl
@[simp] theorem State.goto_perr (s : State) (line sub : Nat) : (s.goto line sub).perr = s.perr := rfl
@[simp] theorem State.goto_entry (s : State) (line sub : Nat) : (s.goto line sub).entry = s.entry := rfl
@[simp] theorem State.goto_port (s : State) (line sub : Nat) : (s.goto line sub).port = s.port := rfl
@[simp] theorem State.goto_fwd (s : State) (line sub : Nat) : (s.goto line sub).fwd = s.fwd := rfl
@[simp] theorem State.goto_draw (s : State) (line sub : Nat) : (s.goto line sub).draw = s.draw := rfl
@[simp] theorem State.goto_seq (s : State) (line sub : Nat) : (s.goto line sub).seq = ⟨s.seq.script, line, sub⟩ := rfl

@[simp] theorem State.advance_cfg (s : State) : (s.advance).cfg = s.cfg := rfl
@[simp] theorem State.advance_timers (s : State) : (s.advance).timers = s.timers := rfl
@[simp] theorem State.advance_uart (s : State) : (s.advance).uart = s.uart := rfl
@[simp] theorem State.advance_ep (s : State) : (s.advance).ep = s.ep := rfl
@[simp] theorem State.advance_ilog (s : State) : (s.advance).ilog = s.ilog := rfl
@[simp] theorem State.advance_rlog (s : State) : (s.advance).rlog = s.rlog := rfl
@[simp] theorem State.advance_perr (s : State) : (s.advance).perr = s.perr := rfl
@[simp] theorem State.advance_entry (s : State) : (s.advance).entry = s.entry := rfl
@[simp] theorem State.advance_port (s : State) : (s.advance).port = s.port := rfl
@[simp] theorem State.advance_fwd (s : State) : (s.advance).fwd = s.fwd := rfl
@[simp] theorem State.advance_draw (s : State) : (s.advance).draw = s.draw := rfl
@[simp] theorem State.advance_seq (s : State) : (s.advance).seq = ⟨s.seq.script, s.seq.line + 1, 0⟩ := rfl

@[simp] theorem State.withOp_cfg (s : State) (o : Op) : (s.withOp o).cfg = s.cfg := rfl
@[simp] theorem State.withOp_timers (s : State) (o : Op) : (s.withOp o).timers = s.timers := rfl
@[simp] theorem State.withOp_uart (s : State) (o : Op) : (s.withOp o).uart = s.uart := rfl
@[simp] theorem State.withOp_ep (s : State) (o : Op) : (s.withOp o).ep = s.ep := rfl
@[simp] theorem State.withOp_ilog (s : State) (o : Op) : (s.withOp o).ilog = s.ilog := rfl
@[simp] theorem State.withOp_rlog (s : State) (o : Op) : (s.withOp o).rlog = s.rlog := rfl
@[simp] theorem State.withOp_perr (s : State) (o : Op) : (s.withOp o).perr = s.perr := rfl
@[simp] theorem State.withOp_entry (s : State) (o : Op) : (s.withOp o).entry = s.entry := rfl
@[simp] theorem State.withOp_port (s : State) (o : Op) : (s.withOp o).port = s.port := rfl
@[simp] theorem State.withOp_fwd (s : State) (o : Op) : (s.withOp o).fwd = s.fwd := rfl
@[simp] theorem State.withOp_draw (s : State) (o : Op) : (s.withOp o).draw = s.draw := rfl
@[simp] theorem State.withOp_seq (s : State) (o : Op) : (s.withOp o).seq = ⟨[.op o], 0, 0⟩ := rfl

@[simp] theorem State.respond_read_port (s : State) (d : Word) (r : Resp) :
    (s.respond .read d r).port = ⟨d, r, s.port.answer⟩ := rfl

@[simp] theorem State.respond_write_port (s : State) (e d : Word) (r : Resp) :
    (s.respond (.write e) d r).port = ⟨s.port.data, r, s.port.answer⟩ := rfl

theorem State.busError_port (s : State) (kind : RejectKind) (x : Access) :
    (s.busError kind x).port = (s.respond x.xfer zeroData .error).port := by
  rcases x with ⟨_, _, _ | _⟩ <;> rfl

theorem State.forward_port (s : State) (m : MemTarget) (x : Access) :
    (s.forward m x).port =
      (s.respond x.xfer (Config.targetData (s.fwd ++ [⟨m, x⟩]) s.draw)
        (Config.targetResp (s.fwd ++ [⟨m, x⟩]) s.draw)).port := by
  rcases x with ⟨_, _, _ | _⟩ <;> rfl

/-- A response leaves the endpoint's answer. -/
@[simp] theorem State.respond_answer (s : State) (x : Xfer) (d : Word) (r : Resp) :
    (s.respond x d r).port.answer = s.port.answer := by cases x <;> rfl

@[simp] theorem State.respond_resp (s : State) (x : Xfer) (d : Word) (r : Resp) :
    (s.respond x d r).port.resp = r := by cases x <;> rfl

end Sys2Proof.Machine
end

