-- ==== Sys2Proof/Laws/Ops.lean ====
section
/-! SUPPORT. One lemma for each flag operation and each shared operation that says once what it can do. -/

namespace Sys2Proof.Machine

/-! ### Flags -/

/-- The word of one STATUS bit has that bit and no other (R17). -/
theorem statusBit_getLsbD (b : Fin 32) (j : Nat) : (statusBit b).getLsbD j = decide (j = b) := by
  rw [statusBit, BitVec.getLsbD_twoPow]
  by_cases h : j = b
  · simp [h]
  · simp [h, Ne.symm h]

/-- Setting RX_READY sets that STATUS bit and no other (R83). -/
theorem setRxReady_getLsbD (c : Config) (u : Uart) (j : Nat) :
    (setRxReady c u).st.getLsbD j = (decide (j = c.rxReadyBit) || u.st.getLsbD j) := by
  rw [setRxReady, BitVec.getLsbD_or, statusBit_getLsbD, Bool.or_comm]

/-- Clearing RX_READY clears that STATUS bit and no other (R75). -/
theorem clearRxReady_getLsbD (c : Config) (u : Uart) (j : Nat) :
    (clearRxReady c u).st.getLsbD j = (decide (j ≠ c.rxReadyBit) && u.st.getLsbD j) := by
  rw [clearRxReady, BitVec.getLsbD_and, BitVec.getLsbD_not, statusBit_getLsbD]
  by_cases hj : j < 32
  · by_cases h : j = c.rxReadyBit <;> simp [hj, h]
  · simp [BitVec.getLsbD_of_ge u.st j (by omega)]

section Ready
variable (c : Config) (u : Uart)

@[simp] theorem setRxReady_rx : (setRxReady c u).rx = u.rx := rfl
@[simp] theorem setRxReady_tx : (setRxReady c u).tx = u.tx := rfl
@[simp] theorem clearRxReady_rx : (clearRxReady c u).rx = u.rx := rfl
@[simp] theorem clearRxReady_tx : (clearRxReady c u).tx = u.tx := rfl
@[simp] theorem rxReady_setRxReady : rxReady c (setRxReady c u) = true := by
  rw [rxReady, setRxReady_getLsbD]; simp
@[simp] theorem rxReady_clearRxReady : rxReady c (clearRxReady c u) = false := by
  rw [rxReady, clearRxReady_getLsbD]; simp
@[simp] theorem txReady_setRxReady (h : c.rxReadyBit ≠ c.txReadyBit) : txReady c (setRxReady c u) = txReady c u := by
  have : ¬ (c.txReadyBit : Nat) = c.rxReadyBit := fun he => h (Fin.ext he.symm)
  rw [txReady, txReady, setRxReady_getLsbD, decide_eq_false this, Bool.false_or]
@[simp] theorem txReady_clearRxReady (h : c.rxReadyBit ≠ c.txReadyBit) :
    txReady c (clearRxReady c u) = txReady c u := by
  have : ¬ (c.txReadyBit : Nat) = c.rxReadyBit := fun he => h (Fin.ext he.symm)
  rw [txReady, txReady, clearRxReady_getLsbD, decide_eq_true (by exact this), Bool.true_and]
@[simp] theorem rxReady_withTx (x : Word) : rxReady c { u with tx := x } = rxReady c u := rfl
@[simp] theorem txReady_withTx (x : Word) : txReady c { u with tx := x } = txReady c u := rfl
@[simp] theorem rxReady_withRx (x : Word) : rxReady c { u with rx := x } = rxReady c u := rfl
@[simp] theorem txReady_withRx (x : Word) : txReady c { u with rx := x } = txReady c u := rfl

/-- The UART's reset leaves TX_READY and nothing else, whatever was there (R86). -/
@[simp] theorem resetUart_eq : resetUart c u = Uart.reset c := by
  simp [resetUart, setTxReady, Uart.reset, statusBit]
@[simp] theorem rxReady_reset (h : c.rxReadyBit ≠ c.txReadyBit) : rxReady c (Uart.reset c) = false := by
  have : ¬ (c.rxReadyBit : Nat) = c.txReadyBit := fun he => h (Fin.ext he)
  exact (statusBit_getLsbD _ _).trans (decide_eq_false this)
@[simp] theorem txReady_reset : txReady c (Uart.reset c) = true := by
  exact (statusBit_getLsbD _ _).trans (decide_eq_true rfl)

end Ready

@[simp] theorem resetTimer_eq (t : Timer) : resetTimer t = Timer.reset := rfl

/-! ### The endpoint -/

@[simp] theorem Endpoint.emit_connected (e : Endpoint) (b : Byte) : (e.emit b).connected = e.connected := by
  unfold Endpoint.emit; split <;> rfl

theorem Endpoint.emit_out (e : Endpoint) (b : Byte) :
    (e.emit b).out = if e.connected then e.out ++ [b] else e.out := by
  unfold Endpoint.emit; split <;> rfl

/-- A byte a TX write sends is the value modulo 256 (R77). -/
theorem txByte_eq (d : Word) : txByte d = BitVec.ofNat 8 (d.toNat % 256) := by
  apply BitVec.eq_of_toNat_eq
  simp [txByte]

/-! ### Timers -/

/-- The next count of a running timer, by R69's cases. -/
theorem nextCount_cases (c : Config) (cnt : Word) :
    (c.zeroVisible = false ∧ cnt.toNat ≤ 1 ∧ nextCount c cnt = c.timerLimit)
    ∨ (c.zeroVisible = true ∧ cnt.toNat = 0 ∧ nextCount c cnt = c.timerLimit)
    ∨ (c.zeroVisible = false ∧ 2 ≤ cnt.toNat ∧ (nextCount c cnt).toNat = cnt.toNat - 1)
    ∨ (c.zeroVisible = true ∧ 1 ≤ cnt.toNat ∧ (nextCount c cnt).toNat = cnt.toNat - 1) := by
  have hlt := cnt.isLt
  have hsub : 1 ≤ cnt.toNat → (cnt - 1#32).toNat = cnt.toNat - 1 := by
    intro h; rw [BitVec.toNat_sub]; simp; omega
  cases hz : c.zeroVisible
  · by_cases h : cnt ≤ 1#32
    · exact .inl ⟨rfl, by simpa [BitVec.le_def] using h, by simp [nextCount, hz, h]⟩
    · have h2 : 2 ≤ cnt.toNat := by
        have : ¬ cnt.toNat ≤ 1 := by simpa [BitVec.le_def] using h
        omega
      exact .inr (.inr (.inl ⟨rfl, h2, by simp only [nextCount, hz, h]; exact hsub (by omega)⟩))
  · by_cases h : cnt = 0#32
    · exact .inr (.inl ⟨rfl, by simp [h], by simp [nextCount, hz, h]⟩)
    · have h1 : 1 ≤ cnt.toNat := by
        have : cnt.toNat ≠ 0 := fun h0 => h (BitVec.eq_of_toNat_eq (by simpa using h0))
        omega
      exact .inr (.inr (.inr ⟨rfl, h1, by simp only [nextCount, hz, h]; exact hsub h1⟩))

@[simp] theorem tickTimer_mode (c : Config) (t : Timer) : (tickTimer c t).mode = t.mode := by
  unfold tickTimer; split <;> rfl

theorem tickTimer_stopped (c : Config) (t : Timer) (h : t.mode = .stopped) : tickTimer c t = t := by
  simp [tickTimer, isRunning, h]

theorem tickTimer_running (c : Config) (t : Timer) (h : t.mode = .running) :
    tickTimer c t = ⟨.running, nextCount c t.cnt⟩ := by
  simp [tickTimer, isRunning, h]

/-- A timer's operations look at nothing of the configuration but its `TIMER_LIMIT` and `ZERO_VISIBLE` (R69). -/
theorem tickTimer_congr {c d : Config} (hl : c.timerLimit = d.timerLimit) (hz : c.zeroVisible = d.zeroVisible)
    (t : Timer) : tickTimer c t = tickTimer d t := by
  simp only [tickTimer, nextCount, hl, hz]

/-- With R3's mask, the masked count as a number (R15). -/
theorem valueData_toNat {c : Config} (h : c.valueMask = 0xFFFF#32) (t : Timer) :
    (valueData c t).toNat = t.cnt.toNat % 2 ^ 16 := by
  rw [valueData, h, BitVec.toNat_and, show (0xFFFF#32).toNat = 2 ^ 16 - 1 from rfl, Nat.and_two_pow_sub_one_eq_mod]

/-! ### The shared operations that may stop -/

/-- An operation on timer `n` answers a next state only where the instance exists. -/
theorem withTimer_next {n : Nat} {s t : State} {k : Timer → Host.Outcome State Fault Refusal}
    (h : withTimer n s k = .next t) : ∃ u, s.timers[n]? = some u ∧ k u = .next t := by
  unfold withTimer at h
  split at h
  · exact ⟨_, ‹_›, h⟩
  · cases h

theorem withTimer_some {n : Nat} {s : State} {u : Timer} (k : Timer → Host.Outcome State Fault Refusal)
    (h : s.timers[n]? = some u) : withTimer n s k = k u := by
  simp [withTimer, h]

/-- What a delivery can do (R83, R84, R88). -/
theorem deliver_next {b : Byte} {s t : State} (h : deliver b s = .next t) :
    s.ep.connected = true ∧
    ((rxReady s.cfg s.uart = true ∧ t = s.protocolViolation b) ∨ (rxReady s.cfg s.uart = false ∧ t = s.acceptByte b)) := by
  unfold deliver at h
  split at h
  · rename_i hc
    split at h
    · rename_i hr; cases h; exact ⟨hc, .inl ⟨hr, rfl⟩⟩
    · rename_i hr; cases h; exact ⟨hc, .inr ⟨by simpa using hr, rfl⟩⟩
  · cases h

/-- What an instruction fetch can do (R31, R32, R46). -/
theorem fetch_next {a : Addr} {z : Size} {s t : State} (h : fetch a z s = .next t) :
    (∃ m, t = s.forward m ⟨a, z, .read⟩) ∨ t = s.busError .unmapped ⟨a, z, .read⟩ := by
  unfold fetch at h
  split at h <;> cases h
  · exact .inl ⟨_, rfl⟩
  · exact .inl ⟨_, rfl⟩
  · exact .inr rfl

/-! ### Scripts -/

/-- An operand stands for a word exactly when its value is that word's number, and so has room in it (R61). -/
theorem operandBits_eq_some {w : Nat} {c : Config} {names : List (String × Nat)} {o : Operand} {b : BitVec w} :
    operandBits w c names o = some b ↔ operandValue c names o = some b.toNat := by
  constructor
  · intro h
    obtain ⟨v, hv, h⟩ := Option.bind_eq_some_iff.mp h
    split at h
    · cases h
      rw [hv, BitVec.toNat_ofNat, Nat.mod_eq_of_lt ‹_›]
    · cases h
  · intro h
    simp [operandBits, h, b.isLt]

/-- All the members of a list have values exactly when it is the list of those values. -/
theorem allSome_eq_some {α : Type} {l : List (Option α)} {vs : List α} : allSome l = some vs ↔ l = vs.map some := by
  induction l generalizing vs with
  | nil => cases vs <;> simp [allSome]
  | cons x xs ih =>
    cases x with
    | none => cases vs <;> simp [allSome]
    | some v => cases vs <;> simp [allSome, ih, and_comm]

/-! ### The step -/

/-- What a step can do: nothing, when no line is left; an operation; a POLL's read, then the next position; an operation
inside a POLL's braces; a passed EXPECT; a fetch. -/
theorem step_next {s t : State} (h : step s = .next t) :
    (currentLine s = none ∧ t = s)
    ∨ (∃ o, currentLine s = some (.op o) ∧ perform o s.advance = .next t)
    ∨ (∃ a m v env r, currentLine s = some (.poll a m v env) ∧ perform (busOp a .b4 .read) s = .next r
        ∧ ∃ line sub, t = r.goto line sub)
    ∨ (∃ a m v env o line sub, currentLine s = some (.poll a m v env) ∧ o ∈ env
        ∧ perform o (s.goto line sub) = .next t)
    ∨ (∃ line sub, t = s.goto line sub)
    ∨ (∃ a z, currentLine s = some (.fetch a z) ∧ fetch a z s.advance = .next t) := by
  unfold step stepLine at h
  split at h
  next l hl =>
    cases l with
    | op o => exact .inr (.inl ⟨o, hl, h⟩)
    | expect e =>
      simp only [runLine] at h
      split at h
      · cases h; exact .inr (.inr (.inr (.inr (.inl ⟨_, _, rfl⟩))))
      · cases h
    | fetch a z => exact .inr (.inr (.inr (.inr (.inr ⟨a, z, hl, h⟩))))
    | poll a m v env =>
      simp only [runLine, runPoll] at h
      split at h
      · split at h
        next r hr =>
          refine .inr (.inr (.inl ⟨a, m, v, env, r, hl, hr, ?_⟩))
          split at h <;> cases h
          · exact ⟨_, _, rfl⟩
          · exact ⟨_, _, rfl⟩
        · cases h
        · cases h
      · split at h
        next o ho => exact .inr (.inr (.inr (.inl ⟨a, m, v, env, o, _, _, hl, List.mem_of_getElem? ho, h⟩)))
        · cases h; exact .inr (.inr (.inr (.inr (.inl ⟨_, _, rfl⟩))))
  next hl => cases h; exact .inl ⟨hl, rfl⟩

end Sys2Proof.Machine
end

