-- ==== Sys2Proof/Laws/PerInstr.lean ====
section
/-! SUPPORT. The family RowMatch: under the default parameters, the encoded key of every well-formed operation has its
row's match under its row's mask in spec/opcode_table.json. One lemma per constructor. -/

namespace Sys2Proof.Laws.RowMatch

open Machine

/-- The mask of an operation's row in spec/opcode_table.json. -/
def mask : Instr → Key
  | .timerWrControl _ _ | .timerRdValue _ | .timerRdControl _ | .timerWrValue _ _ => 0xFFFFFFFCFF#40
  | .timerRdRsvd _ _ | .timerWrRsvd _ _ _ => 0xFFFFFFFC03#40
  | .uartRdTx | .uartRdRx | .uartRdSt | .uartWrTx _ | .uartWrRx _ | .uartWrSt _ => 0xFFFFFFFFFF#40
  | .uartRdRsvd _ | .uartWrRsvd _ _ => 0xFFFFFFFFE3#40
  | .busUnmapped _ | .ramAccess _ | .romAccess _ _ | .busBadSize _ | .busMisaligned _ => 0xF800000000#40
  | .timerTick _ => 0xFFFFFFFFFC#40
  | .uartReceive _ | .uartReceiveViolation _ => 0xFFFFFFFF00#40
  | .uartCanReceive | .reset => 0xFFFFFFFFFF#40
  | .uartEpEvent _ => 0xFFFFFFFFFE#40
  | .refusedRsv _ => 0x0800000000#40
  | .refusedKind67 _ => 0xE000000000#40
  | .refusedKind815 _ => 0x8000000000#40
  | .refusedEventArg _ => 0x0000000000#40

/-- The match of an operation's row in spec/opcode_table.json. -/
def pattern : Instr → Key
  | .timerWrControl _ _ => 0x05C0210000#40
  | .timerRdValue _ => 0x04C021000C#40
  | .timerRdControl _ => 0x04C0210000#40
  | .timerWrValue _ _ => 0x05C021000C#40
  | .timerRdRsvd _ _ => 0x04C0210000#40
  | .timerWrRsvd _ _ _ => 0x05C0210000#40
  | .uartRdTx => 0x04C0800000#40
  | .uartRdRx => 0x04C0800004#40
  | .uartRdSt => 0x04C0800014#40
  | .uartWrTx _ => 0x05C0800000#40
  | .uartWrRx _ => 0x05C0800004#40
  | .uartWrSt _ => 0x05C0800014#40
  | .uartRdRsvd _ => 0x04C0800000#40
  | .uartWrRsvd _ _ => 0x05C0800000#40
  | .busUnmapped _ | .ramAccess _ | .romAccess _ _ | .busBadSize _ | .busMisaligned _ => 0x0000000000#40
  | .timerTick _ => 0x1000000000#40
  | .uartReceive _ | .uartReceiveViolation _ => 0x2000000000#40
  | .uartCanReceive => 0x3000000000#40
  | .reset => 0x4000000000#40
  | .uartEpEvent _ => 0x5000000000#40
  | .refusedRsv _ => 0x0800000000#40
  | .refusedKind67 _ => 0x6000000000#40
  | .refusedKind815 _ => 0x8000000000#40
  | .refusedEventArg _ => 0x0000000000#40

/-- The family's statement: the encoded key has the row's match under the row's mask. -/
def Statement (i : Instr) : Prop :=
  i.wf Config.default = true → (encode Config.default i).key &&& mask i = pattern i

/-- The keys of the aligned offsets of a timer window, under the mask of the reserved rows. -/
theorem timerKeys : ∀ n < 3, ∀ hi < 16, ∀ lo < 4,
    (encodeReg Config.default (timerRegion Config.default n) (16 * hi + 4 * lo) .read).key &&& 0xFFFFFFFC03#40 = 0x04C0210000#40
    ∧ mkKey 0#4 0#1 2#2 1#1 (BitVec.ofNat 32 ((timerRegion Config.default n).lo + (16 * hi + 4 * lo)))
        &&& 0xFFFFFFFC03#40 = 0x05C0210000#40 := by decide

theorem uartKeys : ∀ off < 0x18, off % 4 = 0 →
    (encodeReg Config.default (uartRegion Config.default) off .read).key &&& 0xFFFFFFFFE3#40 = 0x04C0800000#40
    ∧ mkKey 0#4 0#1 2#2 1#1 (BitVec.ofNat 32 ((uartRegion Config.default).lo + off)) &&& 0xFFFFFFFFE3#40
        = 0x05C0800000#40 := by decide

/-- A mask acts on each field of a key. -/
theorem mkKey_and (k k' : BitVec 4) (r r' : BitVec 1) (z z' : BitVec 2) (w w' : BitVec 1) (a a' : Addr) :
    mkKey k r z w a &&& mkKey k' r' z' w' a' = mkKey (k &&& k') (r &&& r') (z &&& z') (w &&& w') (a &&& a') := by
  unfold mkKey
  refine BitVec.and_append.trans ?_
  rw [BitVec.and_append, BitVec.and_append, BitVec.and_append]

/-- Under the mask of the mux rows only KIND and RSV are left. -/
theorem accessKey (x : Access) : (encodeAccess x).key &&& 0xF800000000#40 = 0x0000000000#40 := by
  have hm : 0xF800000000#40 = mkKey 0xF#4 1#1 0#2 0#1 0#32 := by decide
  rw [hm]
  exact (mkKey_and _ _ _ _ _ _ _ _ _ _).trans (by simp only [BitVec.and_zero]; decide)

/-- The instance of a well-formed timer operation is 0, 1 or 2. -/
theorem instanceBound {n r : Nat} (h : timerNamed Config.default n r = true) : n < 3 := by
  simp only [timerNamed, timerOffOk, Bool.and_eq_true, decide_eq_true_eq] at h
  exact h.1.1.1.1

theorem offBounds {n off : Nat} (h : timerOffOk Config.default n off = true) :
    n < 3 ∧ ∃ hi < 16, ∃ lo < 4, off = 16 * hi + 4 * lo := by
  simp only [timerOffOk, Bool.and_eq_true, decide_eq_true_eq] at h
  have hw : off < 0x100 := h.1.1.2
  exact ⟨h.1.1.1, off / 16, by omega, off % 16 / 4, by omega, by omega⟩

theorem uartBounds {off : Nat} (h : uartOffOk Config.default off = true) : off < 0x18 ∧ off % 4 = 0 := by
  simp only [uartOffOk, Bool.and_eq_true, decide_eq_true_eq] at h
  exact ⟨h.1.1, h.1.2⟩

theorem namedKeys : ∀ n < 3,
    mkKey 0#4 0#1 2#2 1#1 (BitVec.ofNat 32 ((timerRegion Config.default n).lo + 0)) &&& 0xFFFFFFFCFF#40
      = 0x05C0210000#40
    ∧ mkKey 0#4 0#1 2#2 0#1 (BitVec.ofNat 32 ((timerRegion Config.default n).lo + 0)) &&& 0xFFFFFFFCFF#40
      = 0x04C0210000#40
    ∧ mkKey 0#4 0#1 2#2 1#1 (BitVec.ofNat 32 ((timerRegion Config.default n).lo + 0xC)) &&& 0xFFFFFFFCFF#40
      = 0x05C021000C#40
    ∧ mkKey 0#4 0#1 2#2 0#1 (BitVec.ofNat 32 ((timerRegion Config.default n).lo + 0xC)) &&& 0xFFFFFFFCFF#40
      = 0x04C021000C#40 := by decide

theorem timerWrControl (n : Nat) (d : Word) : Statement (.timerWrControl n d) := fun h => (namedKeys n (instanceBound h)).1
theorem timerRdControl (n : Nat) : Statement (.timerRdControl n) := fun h => (namedKeys n (instanceBound h)).2.1
theorem timerWrValue (n : Nat) (d : Word) : Statement (.timerWrValue n d) := fun h => (namedKeys n (instanceBound h)).2.2.1
theorem timerRdValue (n : Nat) : Statement (.timerRdValue n) := fun h => (namedKeys n (instanceBound h)).2.2.2

theorem timerRdRsvd (n off : Nat) : Statement (.timerRdRsvd n off) := by
  intro h
  obtain ⟨hn, hi, hhi, lo, hlo, rfl⟩ := offBounds (Bool.and_eq_true_iff.mp h).1
  exact (timerKeys n hn hi hhi lo hlo).1

theorem timerWrRsvd (n off : Nat) (d : Word) : Statement (.timerWrRsvd n off d) := by
  intro h
  obtain ⟨hn, hi, hhi, lo, hlo, rfl⟩ := offBounds (Bool.and_eq_true_iff.mp h).1
  exact (timerKeys n hn hi hhi lo hlo).2

theorem uartWrKeys :
    mkKey 0#4 0#1 2#2 1#1 (BitVec.ofNat 32 ((uartRegion Config.default).lo + 0)) &&& 0xFFFFFFFFFF#40
      = 0x05C0800000#40
    ∧ mkKey 0#4 0#1 2#2 1#1 (BitVec.ofNat 32 ((uartRegion Config.default).lo + 4)) &&& 0xFFFFFFFFFF#40
      = 0x05C0800004#40
    ∧ mkKey 0#4 0#1 2#2 1#1 (BitVec.ofNat 32 ((uartRegion Config.default).lo + 0x14)) &&& 0xFFFFFFFFFF#40
      = 0x05C0800014#40 := by decide

theorem uartRdTx : Statement .uartRdTx := fun _ => by decide
theorem uartRdRx : Statement .uartRdRx := fun _ => by decide
theorem uartRdSt : Statement .uartRdSt := fun _ => by decide
theorem uartWrTx (d : Word) : Statement (.uartWrTx d) := fun _ => uartWrKeys.1
theorem uartWrRx (d : Word) : Statement (.uartWrRx d) := fun _ => uartWrKeys.2.1
theorem uartWrSt (d : Word) : Statement (.uartWrSt d) := fun _ => uartWrKeys.2.2

theorem uartRdRsvd (off : Nat) : Statement (.uartRdRsvd off) := by
  intro h
  obtain ⟨ho, ha⟩ := uartBounds (Bool.and_eq_true_iff.mp h).1
  exact (uartKeys off ho ha).1

theorem uartWrRsvd (off : Nat) (d : Word) : Statement (.uartWrRsvd off d) := by
  intro h
  obtain ⟨ho, ha⟩ := uartBounds (Bool.and_eq_true_iff.mp h).1
  exact (uartKeys off ho ha).2

theorem busUnmapped (x : Access) : Statement (.busUnmapped x) := fun _ => accessKey x
theorem ramAccess (x : Access) : Statement (.ramAccess x) := fun _ => accessKey x
theorem romAccess (k : Slot) (x : Access) : Statement (.romAccess k x) := fun _ => accessKey x
theorem busBadSize (x : Access) : Statement (.busBadSize x) := fun _ => accessKey x
theorem busMisaligned (x : Access) : Statement (.busMisaligned x) := fun _ => accessKey x

theorem timerTick (n : Nat) : Statement (.timerTick n) := by
  intro h
  have hn : n < 3 := by
    simp only [Instr.wf, Bool.and_eq_true, decide_eq_true_eq] at h
    exact h.1
  have key : ∀ m < 3, (encodeEvent 1#4 (BitVec.ofNat 32 m)).key &&& 0xFFFFFFFFFC#40 = 0x1000000000#40 := by decide
  exact key n hn

theorem deliveryKey : ∀ b : Byte, (encodeEvent 2#4 (b.setWidth 32)).key &&& 0xFFFFFFFF00#40 = 0x2000000000#40 := by
  decide

theorem uartReceive (b : Byte) : Statement (.uartReceive b) := fun _ => deliveryKey b
theorem uartReceiveViolation (b : Byte) : Statement (.uartReceiveViolation b) := fun _ => deliveryKey b
theorem uartCanReceive : Statement .uartCanReceive := fun _ => by decide
theorem reset : Statement .reset := fun _ => by decide
theorem uartEpEvent (ev : EpEvent) : Statement (.uartEpEvent ev) := fun _ => by cases ev <;> decide

theorem refusedRsv (k : Key) : Statement (.refusedRsv k) := by
  intro h
  have hr : keyRsv k = 1#1 := of_decide_eq_true h
  have hm : 0x0800000000#40 = mkKey 0#4 1#1 0#2 0#1 0#32 := by decide
  show k &&& 0x0800000000#40 = 0x0800000000#40
  rw [← mkKey_fields k, hr, hm, mkKey_and]
  simp only [BitVec.and_zero, BitVec.and_self]

/-- Under a mask of KIND bits only KIND is left. -/
theorem kindKey (k : Key) (m : BitVec 4) : k &&& mkKey m 0#1 0#2 0#1 0#32 = mkKey (keyKind k &&& m) 0#1 0#2 0#1 0#32 := by
  conv_lhs => rw [← mkKey_fields k]
  rw [mkKey_and]
  simp only [BitVec.and_zero]

theorem refusedKind67 (k : Key) : Statement (.refusedKind67 k) := by
  intro h
  have hk : keyKind k &&& 0xE#4 = 6#4 := by
    have h2 := of_decide_eq_true (Bool.and_eq_true_iff.mp h).2
    rcases h2 with h2 | h2 <;> rw [h2] <;> rfl
  have := kindKey k 0xE#4
  rw [hk] at this
  exact this

theorem refusedKind815 (k : Key) : Statement (.refusedKind815 k) := by
  intro h
  have all : ∀ v : BitVec 4, 8#4 ≤ v → v &&& 8#4 = 8#4 := by decide
  have := kindKey k 8#4
  rw [all _ (of_decide_eq_true (Bool.and_eq_true_iff.mp h).2)] at this
  exact this

theorem refusedEventArg (k : Key) : Statement (.refusedEventArg k) := fun _ => BitVec.and_zero

end Sys2Proof.Laws.RowMatch
end

