-- ==== Sys2Proof/Tests/Slice0.lean ====
section
/-! SUPPORT. The model's own tests: ill-formed terms the checks refuse, keys written out from R47 and the tables of
30_encoding.md and 95_test_vectors.md, one-step vectors of 95_test_vectors.md, and for every statement with hypotheses a
state and operands that meet them. Every expected value is the spec's (the vector or rule is named). -/

namespace Sys2Proof.Tests

open Machine Claims

/-! ### Helpers -/

/-- The state an outcome answers, if it answers one. -/
def after : Host.Outcome State Fault Refusal → Option State
  | .next s => some s
  | .fault _ => none
  | .refused _ => none

/-- The refusal an outcome answers, if it answers one. -/
def refusal : Host.Outcome State Fault Refusal → Option Refusal
  | .next _ => none
  | .fault _ => none
  | .refused r => some r

/-- The outcome is a next state. -/
def goesOn (o : Host.Outcome State Fault Refusal) : Bool := (after o).isSome

theorem next_of_goesOn {o : Host.Outcome State Fault Refusal} (h : goesOn o = true) : ∃ t, o = .next t := by
  cases o with
  | next s => exact ⟨s, rfl⟩
  | fault r => cases h
  | refused r => cases h

/-- The reset machine with timer 0 in a given state. -/
def withT0 (m : Mode) (cnt : Word) : State := State.reset.setTimer 0 ⟨m, cnt⟩

/-- The reset machine with given RX and STATUS registers. -/
def withU (rx st : Word) : State := { State.reset with uart := ⟨rx, st, 0#32⟩ }

/-- The reset machine with `ZERO_VISIBLE` = true and timer 0 in a given state. -/
def withT0Visible (m : Mode) (cnt : Word) : State :=
  { withT0 m cnt with cfg := { Config.default with zeroVisible := true } }

/-- The reset machine without an endpoint. -/
def unconnected : State := State.ofConfig { Config.default with endpointConnected := false }

/-- A configuration with an image in slot 1, and one with an image in slot 0. -/
def cfgRom1 : Config := { Config.default with romFile1 := some "image1" }
def cfgRom0 : Config := { Config.default with romFile0 := some "image0", flashSize0 := 8 }

/-- Surroundings in which every image file has `n` bytes, or none exists. -/
def files (n : Option Nat) : Surroundings := ⟨true, fun _ => n⟩

/-- The machine `s` with a script, at its first line. -/
def scripted (s : State) (l : List Line) : State := { s with seq := ⟨l, 0, 0⟩ }

/-- A running timer, a stopped timer and a pending byte: a state of the invariant that is not the reset state. -/
def busy : State := { withT0 .running 1#32 with uart := ⟨0x41#32, 0x3#32, 0#32⟩ }

theorem busy_inv : busy.Inv where
  config := by decide
  timerCount := by decide
  timers := by unfold Timer.Inv; decide
  uart := by unfold Uart.Inv; decide
  endpoint := by decide
  unconnected := by decide
  entry := by decide

/-- The operation a key decodes to under the default configuration with RX_READY = 0. -/
def dec (k : Key) (d : Word) : Instr := decode Config.default false k d

/-- The reset machine, or a given one, after the operation of a key. -/
def run (s : State) (k : Key) (d : Word) : Option State := after (perform ⟨k, d⟩ s)

/-! ### WellFormed: an ill-formed term for each check -/

theorem test_wf_default : Config.default.wf = true := by decide
/-- R3's table, the rows the rules write as numbers. -/
theorem test_default_numbers :
    (Config.default.addrWidth, Config.default.dataWidth, Config.default.accessSize, Config.default.regShift)
      = (32, 32, .b4, 2)
    ∧ (Config.default.timerLimit, Config.default.valueMask, Config.default.uartStride) = (0xFFFF, 0xFFFF, 4)
    ∧ (Config.default.rxReadyBit, Config.default.txReadyBit) = (0, 1) := by decide
theorem test_wf_refuses_window_over_stride : Config.wf { Config.default with timerStride := 0xFC } = false := by decide
theorem test_wf_refuses_equal_timer_offsets :
    Config.wf { Config.default with timerControlOff := 0x0C } = false := by decide
theorem test_wf_refuses_timer_offsets :
    Config.wf { Config.default with timerControlOff := 0x02 } = false
    ∧ Config.wf { Config.default with timerControlOff := 0x100 } = false
    ∧ Config.wf { Config.default with timerValueOff := 0x0E } = false
    ∧ Config.wf { Config.default with timerValueOff := 0x100 } = false := by decide
theorem test_wf_refuses_equal_uart_offsets :
    Config.wf { Config.default with uartTxOff := 0x04 } = false
    ∧ Config.wf { Config.default with uartTxOff := 0x14 } = false
    ∧ Config.wf { Config.default with uartRxOff := 0x14 } = false := by decide
theorem test_wf_refuses_uart_offsets :
    Config.wf { Config.default with uartTxOff := 0x01 } = false
    ∧ Config.wf { Config.default with uartTxOff := 0x18 } = false
    ∧ Config.wf { Config.default with uartRxOff := 0x06 } = false
    ∧ Config.wf { Config.default with uartRxOff := 0x18 } = false
    ∧ Config.wf { Config.default with uartStOff := 0x13 } = false
    ∧ Config.wf { Config.default with uartStOff := 0x18 } = false := by decide
theorem test_wf_refuses_unaligned_bases :
    Config.wf { Config.default with timerBase := 0xC0210002 } = false
    ∧ Config.wf { Config.default with uartBase := 0xC0800001 } = false
    ∧ Config.wf { Config.default with rom0Base := 0xF0000001 } = false
    ∧ Config.wf { Config.default with rom1Base := 0xF8000003 } = false := by decide
theorem test_wf_refuses_overlap :
    Config.wf { Config.default with uartBase := 0xC02102FC } = false
    ∧ Config.wf { Config.default with ramSize := 0xC0210001 } = false
    ∧ Config.wf { cfgRom1 with romFile0 := some "image0", romMaxSize := 0x08000001 } = false := by decide
theorem test_wf_refuses_widths :
    Config.wf { Config.default with addrWidth := 64 } = false
    ∧ Config.wf { Config.default with dataWidth := 16 } = false := by decide
theorem test_wf_refuses_equal_status_bits : Config.wf { Config.default with rxReadyBit := 1 } = false := by decide
/-- What log 27 says: a stride that is no multiple of 4 is admitted. -/
theorem test_wf_admits_odd_stride : Config.wf { Config.default with timerStride := 0x101 } = true := by decide
theorem test_wf_admits_touching_regions :
    Config.wf { Config.default with uartBase := 0xC0210300 } = true
    ∧ Config.wf { Config.default with ramSize := 0xC0210000 } = true := by decide

theorem test_instr_wf_refuses_timer :
    Instr.wf Config.default (.timerWrControl 3 0) = false ∧ Instr.wf Config.default (.timerRdValue 3) = false
    ∧ Instr.wf Config.default (.timerRdControl 3) = false ∧ Instr.wf Config.default (.timerWrValue 3 0) = false
    ∧ Instr.wf Config.default (.timerRdRsvd 0 0x0C) = false ∧ Instr.wf Config.default (.timerRdRsvd 0 0x06) = false
    ∧ Instr.wf Config.default (.timerRdRsvd 0 0x100) = false ∧ Instr.wf Config.default (.timerRdRsvd 3 0x04) = false
    ∧ Instr.wf Config.default (.timerWrRsvd 0 0x00 0) = false
    ∧ Instr.wf { Config.default with timerBase := 0xFFFFFFF8 } (.timerRdRsvd 0 0x08) = false
    ∧ Instr.wf Config.default (.timerTick 3) = false := by decide
theorem test_instr_wf_refuses_uart :
    Instr.wf Config.default (.uartRdRsvd 0x04) = false ∧ Instr.wf Config.default (.uartRdRsvd 0x18) = false
    ∧ Instr.wf Config.default (.uartWrRsvd 0x14 0) = false ∧ Instr.wf Config.default (.uartWrRsvd 0x09 0) = false
    ∧ Instr.wf { Config.default with uartTxOff := 0x20 } .uartRdTx = false
    ∧ Instr.wf { Config.default with uartTxOff := 0x20 } (.uartWrTx 0) = false
    ∧ Instr.wf { Config.default with uartRxOff := 0x20 } .uartRdRx = false
    ∧ Instr.wf { Config.default with uartRxOff := 0x20 } (.uartWrRx 0) = false
    ∧ Instr.wf { Config.default with uartStOff := 0x20 } .uartRdSt = false
    ∧ Instr.wf { Config.default with uartStOff := 0x20 } (.uartWrSt 0) = false := by decide
theorem test_instr_wf_refuses_mux :
    Instr.wf Config.default (.busUnmapped ⟨0x0, .b4, .read⟩) = false
    ∧ Instr.wf Config.default (.ramAccess ⟨0x04000000, .b4, .read⟩) = false
    ∧ Instr.wf Config.default (.romAccess .rom1 ⟨0xF8000000, .b4, .read⟩) = false
    ∧ Instr.wf Config.default (.busBadSize ⟨0xC0800000, .b4, .read⟩) = false
    ∧ Instr.wf Config.default (.busBadSize ⟨0x0, .b1, .read⟩) = false
    ∧ Instr.wf Config.default (.busMisaligned ⟨0xC0800004, .b4, .read⟩) = false
    ∧ Instr.wf Config.default (.busMisaligned ⟨0xC0800005, .b2, .read⟩) = false := by decide
theorem test_instr_wf_refuses_keys :
    Instr.wf Config.default (.refusedRsv 0x0#40) = false ∧ Instr.wf Config.default (.refusedKind67 0x5#40) = false
    ∧ Instr.wf Config.default (.refusedKind67 0x6800000000#40) = false
    ∧ Instr.wf Config.default (.refusedKind815 0x7000000000#40) = false
    ∧ Instr.wf Config.default (.refusedEventArg 0x1000000002#40) = false
    ∧ Instr.wf Config.default (.refusedEventArg 0x0000000000#40) = false := by decide
theorem test_fits_state :
    Instr.fitsState true (.uartReceive 0) = false ∧ Instr.fitsState false (.uartReceiveViolation 0) = false := by decide

/-! ### Decode: every constructor from a key written out from the spec -/

/-- R47 field by field: KIND 0000, RSV 0, SZ 10, W, A. -/
theorem test_decode_bits :
    dec (0b0000#4 ++ 0b0#1 ++ 0b10#2 ++ 0b1#1 ++ 0b11000000001000010000000100000000#32) 7 = .timerWrControl 1 7
    ∧ dec (0b0000#4 ++ 0b0#1 ++ 0b10#2 ++ 0b0#1 ++ 0b11000000100000000000000000010100#32) 0 = .uartRdSt
    ∧ dec (0b0000#4 ++ 0b0#1 ++ 0b01#2 ++ 0b1#1 ++ 0b00000011111111111111111111111111#32) 5
        = .ramAccess ⟨0x03FFFFFF, .b2, .write 5⟩
    ∧ dec (0b0001#4 ++ 0b0#1 ++ 0b00#2 ++ 0b0#1 ++ 0b00000000000000000000000000000010#32) 0 = .timerTick 2
    ∧ dec (0b0010#4 ++ 0b0#1 ++ 0b00#2 ++ 0b0#1 ++ 0b00000000000000000000000011000001#32) 0 = .uartReceive 0xC1
    ∧ dec (0b0000#4 ++ 0b1#1 ++ 0b00#2 ++ 0b0#1 ++ 0b00000000000000000000000000000000#32) 0
        = .refusedRsv 0x0800000000#40 := by decide

theorem test_decode_timer :
    dec 0x05C0210000#40 0xDEADBEEF = .timerWrControl 0 0xDEADBEEF ∧ dec 0x05C0210200#40 1 = .timerWrControl 2 1
    ∧ dec 0x04C021000C#40 0 = .timerRdValue 0 ∧ dec 0x04C021020C#40 0 = .timerRdValue 2
    ∧ dec 0x04C0210100#40 0 = .timerRdControl 1 ∧ dec 0x05C021000C#40 5 = .timerWrValue 0 5
    ∧ dec 0x04C02102FC#40 0 = .timerRdRsvd 2 0xFC ∧ dec 0x05C0210008#40 9 = .timerWrRsvd 0 8 9
    ∧ dec 0x1000000001#40 0 = .timerTick 1 := by decide

theorem test_decode_uart :
    dec 0x04C0800000#40 0 = .uartRdTx ∧ dec 0x04C0800004#40 0 = .uartRdRx ∧ dec 0x04C0800014#40 0 = .uartRdSt
    ∧ dec 0x05C0800000#40 0x41 = .uartWrTx 0x41 ∧ dec 0x05C0800004#40 0x55 = .uartWrRx 0x55
    ∧ dec 0x05C0800014#40 3 = .uartWrSt 3 ∧ dec 0x04C0800010#40 0 = .uartRdRsvd 0x10
    ∧ dec 0x05C0800008#40 1 = .uartWrRsvd 8 1 := by decide

theorem test_decode_endpoint :
    dec 0x2000000041#40 0 = .uartReceive 0x41 ∧ decode Config.default true 0x2000000041#40 0 = .uartReceiveViolation 0x41
    ∧ dec 0x3000000000#40 0 = .uartCanReceive ∧ dec 0x4000000000#40 0 = .reset
    ∧ dec 0x5000000000#40 0 = .uartEpEvent .connect ∧ dec 0x5000000001#40 0 = .uartEpEvent .disconnect := by decide

/-- DE1 to DE15, and ROM(1) present. -/
theorem test_decode_mux :
    dec 0x00C021000C#40 0 = .busBadSize ⟨0xC021000C, .b1, .read⟩
    ∧ dec 0x07C0210000#40 0 = .busBadSize ⟨0xC0210000, .b8, .write 0⟩
    ∧ dec 0x04C021000D#40 0 = .busMisaligned ⟨0xC021000D, .b4, .read⟩
    ∧ dec 0x04C0800017#40 0 = .busMisaligned ⟨0xC0800017, .b4, .read⟩
    ∧ dec 0x04C0800018#40 0 = .busUnmapped ⟨0xC0800018, .b4, .read⟩
    ∧ dec 0x04C0210300#40 0 = .busUnmapped ⟨0xC0210300, .b4, .read⟩
    ∧ dec 0x02C0800005#40 0 = .busBadSize ⟨0xC0800005, .b2, .read⟩
    ∧ dec 0x06D0000000#40 0 = .busUnmapped ⟨0xD0000000, .b8, .read⟩
    ∧ dec 0x0000000001#40 0 = .ramAccess ⟨0x1, .b1, .read⟩
    ∧ decode cfgRom1 false 0x05F8000000#40 0 = .romAccess .rom1 ⟨0xF8000000, .b4, .write 0⟩
    ∧ dec 0x04F8000000#40 0 = .busUnmapped ⟨0xF8000000, .b4, .read⟩ := by decide

/-- DE16 to DE22. -/
theorem test_decode_refused :
    dec 0x0800000000#40 0 = .refusedRsv 0x0800000000#40 ∧ dec 0x6000000000#40 0 = .refusedKind67 0x6000000000#40
    ∧ dec 0x7000000000#40 0 = .refusedKind67 0x7000000000#40
    ∧ dec 0x8000000000#40 0 = .refusedKind815 0x8000000000#40
    ∧ dec 0x1000000003#40 0 = .refusedEventArg 0x1000000003#40
    ∧ dec 0x2000000141#40 0 = .refusedEventArg 0x2000000141#40
    ∧ dec 0x1100000000#40 0 = .refusedEventArg 0x1100000000#40
    ∧ dec 0x5000000002#40 0 = .refusedEventArg 0x5000000002#40
    ∧ dec 0x4400000000#40 0 = .refusedEventArg 0x4400000000#40 := by decide

theorem test_decode_table_word :
    decodeTableWord 40 0x04C021000C = some (.timerRdValue 0)
    ∧ decodeTableWord 40 (0x41 * 2 ^ 40 + 0x05C0800000) = some (.uartWrTx 0x41)
    ∧ decodeTableWord 40 (2 ^ 72) = none := by decide

theorem test_fetch_word_runs :
    (after (step (State.reset.withFetchWord 40 0x05C0210100))).map State.timers
      = some [⟨.stopped, 0⟩, ⟨.running, 0xFFFF⟩, ⟨.stopped, 0⟩] := by decide

/-! ### One step of each operation -/

/-- V-S9, TM8. -/
theorem test_wr_control_restarts :
    (run (withT0 .running 0x8000) 0x05C0210000#40 0xDEADBEEF).map State.timers
      = some [⟨.running, 0xFFFF⟩, ⟨.stopped, 0⟩, ⟨.stopped, 0⟩] := by decide
/-- TM1. -/
theorem test_rd_value_never_started : (run State.reset 0x04C021000C#40 0).map State.port = some ⟨0, .ok, false⟩ := by decide
/-- R64: the mask. -/
theorem test_rd_value_masks :
    (run (withT0 .running 0x12348000) 0x04C021000C#40 0).map (fun s => s.port.data) = some 0x8000 := by decide
/-- TM11. -/
theorem test_rd_control_logs :
    (run State.reset 0x04C0210100#40 0).map (fun s => (s.port.data, s.port.resp, s.ilog))
      = some (0, .ok, [⟨.timer 1, 0x00, .read⟩]) := by decide
/-- TM9. -/
theorem test_wr_value_ignored :
    (run (withT0 .running 0x1234) 0x05C021000C#40 5).map (fun s => (s.timers[0]?, s.ilog))
      = some (some ⟨.running, 0x1234⟩, [⟨.timer 0, 0x0C, .write⟩]) := by decide
/-- DE10. -/
theorem test_timer_rd_rsvd :
    (run State.reset 0x04C02102FC#40 0).map (fun s => (s.port.data, s.ilog)) = some (0, [⟨.timer 2, 0xFC, .read⟩]) := by decide
/-- TM12. -/
theorem test_timer_wr_rsvd :
    (run State.reset 0x05C0210008#40 0xFFFFFFFF).map (fun s => (s.timers, s.ilog))
      = some (State.reset.timers, [⟨.timer 0, 0x08, .write⟩]) := by decide
/-- TM7 and TM5: 2 goes to 1; 1 reloads, or shows 0. -/
theorem test_tick_counts :
    (run (withT0 .running 2) 0x1000000000#40 0).map (fun s => s.timers[0]?) = some (some ⟨.running, 1⟩)
    ∧ (run (withT0 .running 1) 0x1000000000#40 0).map (fun s => s.timers[0]?) = some (some ⟨.running, 0xFFFF⟩)
    ∧ (run (withT0Visible .running 1) 0x1000000000#40 0).map (fun s => s.timers[0]?) = some (some ⟨.running, 0⟩)
    ∧ (run (withT0Visible .running 0) 0x1000000000#40 0).map (fun s => s.timers[0]?) = some (some ⟨.running, 0xFFFF⟩) := by
  decide
/-- TM2. -/
theorem test_tick_stopped : (run State.reset 0x1000000000#40 0).map State.timers = some State.reset.timers := by decide
/-- UA15. -/
theorem test_uart_rd_tx :
    (run (withU 0x41 3) 0x04C0800000#40 0).map (fun s => (s.port.data, s.uart, s.ilog))
      = some (0, ⟨0x41, 3, 0⟩, [⟨.uart, 0x00, .read⟩]) := by decide
/-- V-S4 step 3. -/
theorem test_uart_rd_rx :
    (run (withU 0x41 3) 0x04C0800004#40 0).map (fun s => (s.port.data, s.uart)) = some (0x41, ⟨0x41, 2, 0⟩) := by decide
/-- V-S4 step 4: the stale value. -/
theorem test_uart_rd_rx_stale :
    (run (withU 0x41 2) 0x04C0800004#40 0).map (fun s => (s.port.data, s.uart)) = some (0x41, ⟨0x41, 2, 0⟩) := by decide
/-- V-S4 step 2. -/
theorem test_uart_rd_st :
    (run (withU 0x41 3) 0x04C0800014#40 0).map (fun s => (s.port.data, s.uart)) = some (3, ⟨0x41, 3, 0⟩) := by decide
/-- UA10. -/
theorem test_uart_wr_tx :
    (run State.reset 0x05C0800000#40 0x12345641).map (fun s => (s.ep.out, s.uart.st)) = some ([0x41], 2) := by decide
/-- UA11. -/
theorem test_uart_wr_tx_unconnected : (run unconnected 0x05C0800000#40 0x41).map (fun s => s.ep.out) = some [] := by decide
/-- UA14. -/
theorem test_uart_wr_rx :
    (run State.reset 0x05C0800004#40 0x55).map (fun s => (s.uart, s.ilog))
      = some (⟨0, 2, 0⟩, [⟨.uart, 0x04, .write⟩]) := by decide
/-- UA13. -/
theorem test_uart_wr_st :
    (run State.reset 0x05C0800014#40 0xFFFFFFFF).map (fun s => (s.uart, s.ilog)) = some (⟨0, 2, 0⟩, []) := by decide
/-- V-S8. -/
theorem test_uart_rd_rsvd :
    (run (withU 0x41 3) 0x04C0800008#40 0).map (fun s => (s.port.data, s.uart, s.ilog))
      = some (0, ⟨0x41, 3, 0⟩, [⟨.uart, 0x08, .read⟩]) := by decide
/-- UA16. -/
theorem test_uart_wr_rsvd :
    (run (withU 0x41 3) 0x05C0800008#40 1).map (fun s => (s.uart, s.ilog))
      = some (⟨0x41, 3, 0⟩, [⟨.uart, 0x08, .write⟩]) := by decide
/-- UA4, UA5. -/
theorem test_can_receive :
    (run State.reset 0x3000000000#40 0).map (fun s => s.port.answer) = some true
    ∧ (run (withU 0x41 3) 0x3000000000#40 0).map (fun s => s.port.answer) = some false := by decide
/-- UA7. -/
theorem test_receive_zero_extends : (run State.reset 0x20000000FF#40 0).map State.uart = some ⟨0xFF, 3, 0⟩ := by decide
/-- V-S5. -/
theorem test_receive_violation :
    (run (withU 0x41 3) 0x2000000042#40 0).map (fun s => (s.uart, s.perr)) = some (⟨0x41, 3, 0⟩, true) := by decide
/-- R88. -/
theorem test_receive_unconnected : refusal (perform ⟨0x2000000041#40, 0⟩ unconnected) = some (.noEndpoint 0x41) := by decide
/-- UA18. -/
theorem test_reset_keeps_records :
    (run { withU 0x41 3 with ep := ⟨true, [0x48]⟩, perr := true } 0x4000000000#40 0).map
      (fun s => (s.uart, s.ep.out, s.perr)) = some (⟨0, 2, 0⟩, [0x48], true) := by decide
/-- TM15. -/
theorem test_reset_stops_timer :
    (run (withT0 .running 0x8000) 0x4000000000#40 0).map State.timers = some State.reset.timers := by decide
/-- UA17. -/
theorem test_ep_event : run State.reset 0x5000000001#40 0 = some State.reset := by decide
/-- V-S6. -/
theorem test_unmapped :
    (run State.reset 0x0404000000#40 0).map (fun s => (s.port.data, s.port.resp, s.rlog))
      = some (0, .error, [⟨0x04000000, .b4, .read, .unmapped⟩]) := by decide
/-- DE2. -/
theorem test_bad_size :
    (run (withU 0x41 3) 0x02C0800004#40 0).map (fun s => (s.port.resp, s.uart, s.rlog))
      = some (.error, ⟨0x41, 3, 0⟩, [⟨0xC0800004, .b2, .read, .badSize⟩]) := by decide
/-- DE6. -/
theorem test_misaligned :
    (run (withU 0x41 3) 0x04C0800006#40 0).map (fun s => (s.port.resp, s.uart, s.rlog))
      = some (.error, ⟨0x41, 3, 0⟩, [⟨0xC0800006, .b4, .read, .misaligned⟩]) := by decide
/-- DE13. -/
theorem test_ram_forwarded :
    (run State.reset 0x0000000001#40 0).map State.fwd = some [⟨.ram, ⟨0x1, .b1, .read⟩⟩] := by decide
/-- DE14. -/
theorem test_rom_forwarded :
    (run (State.ofConfig cfgRom1) 0x05F8000000#40 0).map State.fwd
      = some [⟨.rom .rom1, ⟨0xF8000000, .b4, .write 0⟩⟩] := by decide
/-- DE16, DE17, R57, DE18. -/
theorem test_refused :
    refusal (perform ⟨0x0800000000#40, 0⟩ State.reset) = some (.reservedBit 0x0800000000#40)
    ∧ refusal (perform ⟨0x6000000000#40, 0⟩ State.reset) = some (.reservedKind67 0x6000000000#40)
    ∧ refusal (perform ⟨0xF000000000#40, 0⟩ State.reset) = some (.reservedKind815 0xF000000000#40)
    ∧ refusal (perform ⟨0x1000000003#40, 0⟩ State.reset) = some (.eventArgument 0x1000000003#40) := by decide

/-! ### Composition and scripts -/

/-- V-S6 and V-S7: which boards are built, with which regions, bytes and errors. -/
theorem test_create_board :
    (createBoard (files none) Config.default).toOption.map (fun b => (b.regions.length, b.loaded, b.state.entry))
      = some (5, [], 0)
    ∧ (createBoard (files (some 8)) cfgRom0).toOption.map Board.loaded = some [(.rom0, 8)]
    ∧ (createBoard (files (some 9)) cfgRom0).toOption.isNone
    ∧ (createBoard (files none) cfgRom0).toOption.isNone := by decide

/-- P2's first line, expanded (R60 to R62). -/
theorem test_assemble :
    assemble Config.default [] [.poll (.reg .uartSt) (.num 1) (.num 1) [.recv (.num 0x41)], .equ "X" 2,
        .env (.ticks (.num 0) (.name "X")), .expect (.data (.name "X")), .write .b4 (.reg (.timerControl 1)) (.num 0)]
      = some [.poll 0xC0800014 1 1 [⟨0x2000000041#40, 0⟩], .op ⟨0x1000000000#40, 0⟩, .op ⟨0x1000000000#40, 0⟩,
          .expect (.data 2), .op ⟨0x05C0210100#40, 0⟩]
    ∧ assemble Config.default [] [.read .b4 (.reg (.timerValue 3))] = none
    ∧ assemble Config.default [] [.write .b4 (.reg .uartTx) (.num 0x100000000)] = none := by decide

/-- R61: a `.equ` name stands for a value of an EXPECT on a state field, a list of one, and an index too. -/
theorem test_expect_names :
    assemble Config.default [] [.equ "B" 0x41, .expect (.uartRx (.name "B")), .expect (.out [.name "B", .num 0x42]),
        .equ "N" 1, .expect (.timerCnt (.name "N") (.name "B")),
        .expect (.ilog [(.timer (.name "N"), .num 0x0C, .write)])]
      = some [.expect (.uartRx 0x41), .expect (.out [0x41, 0x42]), .expect (.timerCnt 1 0x41),
          .expect (.ilog [⟨.timer 1, 0x0C, .write⟩])] := by decide

/-- What log 28 says: of two `.equ` of one name, the latest above the line counts; and none below it does. -/
theorem test_equ_redefined :
    assemble Config.default [] [.equ "X" 1, .expect (.data (.name "X")), .equ "X" 2, .expect (.data (.name "X"))]
      = some [.expect (.data 1), .expect (.data 2)]
    ∧ assemble Config.default [] [.expect (.data (.name "X")), .equ "X" 2] = none := by decide

/-- R7's field `cfg` in an EXPECT (R61). -/
theorem test_expect_cfg :
    Expect.holds State.reset (.cfg Config.default) = true
    ∧ Expect.holds State.reset (.cfg cfgRom1) = false := by decide

/-! ### The hypotheses of each statement can be met -/

theorem witness_ControlWriteRestartsTimer :
    0 < State.reset.timers.length ∧ 2 < State.reset.timers.length ∧ Legal State.reset
    ∧ timerNamed State.reset.cfg 0 State.reset.cfg.timerControlOff = true
    ∧ timerNamed State.reset.cfg 2 State.reset.cfg.timerControlOff = true := by unfold Legal; decide

theorem witness_ValueReadReturnsMaskedCount :
    (withT0 .running 0xFFFF).timers[0]? = some ⟨.running, 0xFFFF⟩
    ∧ (withT0 .running 0x10000).timers[0]? = some ⟨.running, 0x10000⟩
    ∧ Legal (withT0 .running 0xFFFF)
    ∧ timerNamed (withT0 .running 0xFFFF).cfg 0 (withT0 .running 0xFFFF).cfg.timerValueOff = true
    ∧ (withT0 .running 0x10000).cfg.valueMask = 0x0000FFFF#32 := by
  unfold Legal; decide

theorem witness_TimerInvalidAccessesOnlyLog :
    Legal State.reset ∧ timerNamed State.reset.cfg 2 State.reset.cfg.timerControlOff = true
    ∧ timerNamed State.reset.cfg 2 State.reset.cfg.timerValueOff = true
    ∧ timerOffOk State.reset.cfg 2 0x04 = true ∧ timerOffOk State.reset.cfg 2 0xFC = true
    ∧ 0x04 ≠ State.reset.cfg.timerControlOff ∧ 0x04 ≠ State.reset.cfg.timerValueOff
    ∧ 0xFC ≠ State.reset.cfg.timerControlOff ∧ 0xFC ≠ State.reset.cfg.timerValueOff := by unfold Legal; decide

/-- Each clause at its boundary: stopped; 0 and 1; 2; 0 shown; 1 with zero visible; the last instance. -/
theorem witness_TickCountsDownOrReloads :
    (withT0 .stopped 0).timers[0]? = some ⟨.stopped, 0⟩
    ∧ ((withT0 .running 0).timers[0]? = some ⟨.running, 0⟩ ∧ (withT0 .running 0).cfg.zeroVisible = false
        ∧ (0 : Word).toNat ≤ 1)
    ∧ ((withT0 .running 1).timers[0]? = some ⟨.running, 1⟩ ∧ (withT0 .running 1).cfg.zeroVisible = false
        ∧ (1 : Word).toNat ≤ 1)
    ∧ ((withT0 .running 2).timers[0]? = some ⟨.running, 2⟩ ∧ (withT0 .running 2).cfg.zeroVisible = false
        ∧ 2 ≤ (2 : Word).toNat)
    ∧ ((withT0Visible .running 0).timers[0]? = some ⟨.running, 0⟩ ∧ (withT0Visible .running 0).cfg.zeroVisible = true)
    ∧ ((withT0Visible .running 1).timers[0]? = some ⟨.running, 1⟩ ∧ (withT0Visible .running 1).cfg.zeroVisible = true
        ∧ 1 ≤ (1 : Word).toNat)
    ∧ 2 < State.reset.cfg.numTimers := by decide

/-- The operations between the CONTROL write and the VALUE read in the next witness. -/
def between : List Instr := [.timerTick 0, .timerTick 1, .timerWrControl 1 0, .uartWrSt 0, .timerTick 0]

theorem witness_ValueFollowsClosedForm :
    0 < State.reset.timers.length ∧ (∀ i ∈ between, i ≠ .reset ∧ ∀ d', i ≠ .timerWrControl 0 d')
    ∧ (∃ t, execAll (.timerWrControl 0 0 :: between) State.reset = .next t)
    ∧ State.reset.cfg.timerLimit = 0xFFFF#32 ∧ State.reset.cfg.valueMask = 0xFFFF#32 :=
  ⟨by decide, by simp [between], next_of_goesOn (by decide), by decide⟩

theorem witness_TimersAreIndependent :
    (∃ t, exec (.timerTick 1) State.reset = .next t) ∧ changesTimer 0 (.timerTick 1) = false
    ∧ (∃ t, exec (.timerWrControl 1 0) State.reset = .next t) ∧ changesTimer 0 (.timerWrControl 1 0) = false :=
  ⟨next_of_goesOn (by decide), by decide, next_of_goesOn (by decide), by decide⟩

theorem witness_TimerSeesOnlyItself :
    (withT0 .running 1).timers[0]? = busy.timers[0]? ∧ (withT0 .running 1).cfg.zeroVisible = busy.cfg.zeroVisible
    ∧ (withT0 .running 1).cfg.timerLimit = busy.cfg.timerLimit ∧ (withT0 .running 1).cfg.valueMask = busy.cfg.valueMask
    ∧ (∃ t, exec (.timerRdValue 0) (withT0 .running 1) = .next t) ∧ (∃ t, exec (.timerRdValue 0) busy = .next t)
    ∧ (∃ t, exec (.timerTick 0) (withT0 .running 1) = .next t) ∧ (∃ t, exec (.timerTick 0) busy = .next t)
    ∧ withT0 .running 1 ≠ busy :=
  ⟨by decide, by decide, by decide, by decide, next_of_goesOn (by decide), next_of_goesOn (by decide), next_of_goesOn (by decide),
    next_of_goesOn (by decide), by decide⟩

theorem witness_DevicesShareNoState :
    (∃ t, exec (.timerTick 0) busy = .next t) ∧ Instr.timerTick 0 ≠ .reset
    ∧ (∃ t, exec .uartRdRx busy = .next t) ∧ Instr.uartRdRx ≠ .reset :=
  ⟨next_of_goesOn (by decide), by decide, next_of_goesOn (by decide), by decide⟩

theorem witness_ValueReadTellsMode :
    busy.Inv ∧ busy.cfg.zeroVisible = false ∧ busy.cfg.timerLimit = 0xFFFF#32 ∧ busy.cfg.valueMask = 0xFFFF#32
    ∧ busy.timers[0]? = some ⟨.running, 1⟩ ∧ busy.timers[1]? = some ⟨.stopped, 0⟩ := ⟨busy_inv, by decide⟩

theorem witness_uart_registers_named :
    Legal State.reset ∧ uartNamed State.reset.cfg State.reset.cfg.uartRxOff = true
    ∧ uartNamed State.reset.cfg State.reset.cfg.uartStOff = true
    ∧ uartNamed State.reset.cfg State.reset.cfg.uartTxOff = true := by unfold Legal; decide

theorem witness_RxReadConsumesByte :
    Legal State.reset ∧ uartNamed State.reset.cfg State.reset.cfg.uartRxOff = true :=
  ⟨witness_uart_registers_named.1, witness_uart_registers_named.2.1⟩

theorem witness_StatusAccessHasNoEffect :
    Legal State.reset ∧ uartNamed State.reset.cfg State.reset.cfg.uartStOff = true :=
  ⟨witness_uart_registers_named.1, witness_uart_registers_named.2.2.1⟩

theorem witness_TxWriteEmitsLowByte :
    State.reset.ep.connected = true ∧ unconnected.ep.connected = false
    ∧ Legal State.reset ∧ uartNamed State.reset.cfg State.reset.cfg.uartTxOff = true
    ∧ Legal unconnected ∧ uartNamed unconnected.cfg unconnected.cfg.uartTxOff = true := by unfold Legal; decide

theorem witness_TransmittedBytesKeepOrder : State.reset.ep.connected = true := by decide

theorem witness_UartInvalidAccessesOnlyLog :
    Legal State.reset ∧ uartNamed State.reset.cfg State.reset.cfg.uartTxOff = true
    ∧ uartNamed State.reset.cfg State.reset.cfg.uartRxOff = true
    ∧ uartOffOk State.reset.cfg 0x08 = true ∧ uartOffOk State.reset.cfg 0x10 = true
    ∧ (∀ o ∈ [0x08, 0x0C, 0x10],
        o ≠ State.reset.cfg.uartTxOff ∧ o ≠ State.reset.cfg.uartRxOff ∧ o ≠ State.reset.cfg.uartStOff) := by
  unfold Legal; decide

theorem witness_CanReceiveStaysTrueUntilDelivery :
    State.reset.cfg.rxReadyBit ≠ State.reset.cfg.txReadyBit ∧ rxReady State.reset.cfg State.reset.uart = false ∧ (∀ i ∈ [Instr.uartWrTx 0, .reset, .uartRdRx], isDelivery i = false)
    ∧ ∃ t, execAll [.uartWrTx 0, .reset, .uartRdRx] State.reset = .next t :=
  ⟨by decide, by decide, by decide, next_of_goesOn (by decide)⟩

theorem witness_DeliveryFillsRx :
    State.reset.ep.connected = true ∧ State.reset.uart.st.getLsbD State.reset.cfg.rxReadyBit = false := by decide

theorem witness_OverDeliveryIsRejected : busy.ep.connected = true ∧ busy.uart.st.getLsbD busy.cfg.rxReadyBit = true := by decide

theorem witness_UnconnectedEndpointNeverDelivers :
    unconnected.ep.connected = false ∧ unconnected.cfg.rxReadyBit ≠ unconnected.cfg.txReadyBit
    ∧ rxReady unconnected.cfg unconnected.uart = false
    ∧ ∃ t, step (scripted unconnected [.op ⟨0x05C0800000#40, 0x41⟩]) = .next t :=
  ⟨by decide, by decide, by decide, next_of_goesOn (by decide)⟩

theorem witness_PendingByteSurvivesUntilRead :
    State.reset.ep.connected = true ∧ rxReady State.reset.cfg State.reset.uart = false
    ∧ (∀ i ∈ [Instr.uartRdSt, .uartReceive 0x42, .uartWrTx 0], i ≠ .uartRdRx ∧ i ≠ .reset)
    ∧ ∃ t, execAll (.uartReceive 0x41 :: [.uartRdSt, .uartReceive 0x42, .uartWrTx 0]) State.reset = .next t :=
  ⟨by decide, by decide, by decide, next_of_goesOn (by decide)⟩

theorem witness_UartRegistersStayLegal :
    busy.cfg.rxReadyBit ≠ busy.cfg.txReadyBit ∧ busy.uart.Inv busy.cfg ∧ ∃ t, step (scripted busy [.op ⟨0x04C0800004#40, 0⟩]) = .next t :=
  ⟨by decide, busy_inv.uart, next_of_goesOn (by decide)⟩

/-- The third clause, at both values. -/
theorem witness_UartRegistersStayLegal_bits :
    Config.default.rxReadyBit = 0 ∧ Config.default.txReadyBit = 1
    ∧ Uart.Inv Config.default ⟨0xFF#32, 0x3#32, 0#32⟩ ∧ Uart.Inv Config.default ⟨0#32, 0x2#32, 0#32⟩ := by
  unfold Uart.Inv; decide

/-- One operation for each clause. -/
theorem witness_FlagsWrittenOnlyAsListed :
    (State.reset.cfg.rxReadyBit ≠ State.reset.cfg.txReadyBit ∧ busy.cfg.rxReadyBit ≠ busy.cfg.txReadyBit
      ∧ (withU 0 0).cfg.rxReadyBit ≠ (withU 0 0).cfg.txReadyBit)
    ∧ (∃ t, exec (.uartReceive 0x41) State.reset = .next t ∧ rxReady State.reset.cfg State.reset.uart = false ∧ rxReady t.cfg t.uart = true)
    ∧ (∃ t, exec .uartRdRx busy = .next t ∧ rxReady busy.cfg busy.uart = true ∧ rxReady t.cfg t.uart = false)
    ∧ (∃ t, exec .reset busy = .next t ∧ rxReady busy.cfg busy.uart = true ∧ rxReady t.cfg t.uart = false
        ∧ txReady busy.cfg busy.uart = true ∧ running busy 0 = true ∧ running t 0 = false)
    ∧ (∃ t, exec .reset (withU 0 0) = .next t ∧ txReady (withU 0 0).cfg (withU 0 0).uart = false ∧ txReady t.cfg t.uart = true)
    ∧ (∃ t, exec (.timerWrControl 0 0) State.reset = .next t ∧ running State.reset 0 = false ∧ running t 0 = true) :=
  ⟨by decide, ⟨_, rfl, by decide⟩, ⟨_, rfl, by decide⟩, ⟨_, rfl, by decide⟩, ⟨_, rfl, by decide⟩, ⟨_, rfl, by decide⟩⟩

/-- The first and the last address of every region, and the first past the UART's. -/
theorem witness_RoutingFollowsRegionTable :
    Config.default.wf = true
    ∧ (regionTable Config.default).map (fun r => (r.lo, r.hi, r.target))
        = [(0, 0x04000000, .ram), (0xC0210000, 0xC0210100, .timer 0), (0xC0210100, 0xC0210200, .timer 1),
           (0xC0210200, 0xC0210300, .timer 2), (0xC0800000, 0xC0800018, .uart)]
    ∧ (∀ r ∈ regionTable Config.default, route Config.default (BitVec.ofNat 32 r.lo) = r.target
        ∧ route Config.default (BitVec.ofNat 32 (r.hi - 1)) = r.target)
    ∧ route Config.default 0xC0800018 = .unmapped := by decide

theorem witness_UnmappedAccessIsRejected :
    route State.reset.cfg 0xC0800018 = .unmapped ∧ route State.reset.cfg 0x04000000 = .unmapped := by decide

theorem witness_WrongSizeIsRejected :
    (route State.reset.cfg 0xC0210000).isDevice = true ∧ (route State.reset.cfg 0xC0800017).isDevice = true
    ∧ Size.b8 ≠ State.reset.cfg.accessSize ∧ Size.b1 ≠ State.reset.cfg.accessSize := by decide

theorem witness_MisalignedIsRejected :
    Legal State.reset ∧ Size.b4 = State.reset.cfg.accessSize ∧ route State.reset.cfg 0xC02102FF = .timer 2
    ∧ ((0xC02102FF : Addr).toNat - timerAddr State.reset.cfg 2 0) % 4 ≠ 0
    ∧ route State.reset.cfg 0xC0800001 = .uart
    ∧ ((0xC0800001 : Addr).toNat - uartAddr State.reset.cfg 0) % 4 ≠ 0 := by unfold Legal; decide

theorem witness_MemoryAccessIsForwarded :
    (0x03FFFFFF : Addr).toNat < State.reset.cfg.ramSize
    ∧ route (State.ofConfig cfgRom1).cfg 0xF8000000 = .rom .rom1
    ∧ route (State.ofConfig cfgRom1).cfg 0xFFFFFFFF = .rom .rom1 := by decide

theorem witness_FirstErrorOnlyIsReported :
    Config.default.wf = true ∧ route Config.default 0xD0000001 = .unmapped
    ∧ (route Config.default 0xC0800005).isDevice = true
    ∧ ((0xC0800005 : Addr).toNat - regionBase Config.default (route Config.default 0xC0800005)) % 4 ≠ 0
    ∧ ((0xC0800004 : Addr).toNat - regionBase Config.default (route Config.default 0xC0800004)) % 4 = 0
    ∧ Size.b2 ≠ Config.default.accessSize ∧ Size.b4 = Config.default.accessSize ∧ State.reset.cfg = Config.default
    ∧ ∃ t, exec (decodeAccess Config.default ⟨0xC0800005, .b2, .read⟩) State.reset = .next t :=
  ⟨by decide, by decide, by decide, by decide, by decide, by decide, by decide, by decide, next_of_goesOn (by decide)⟩

theorem witness_OnlyWordKeysReachRegisters :
    ofRegister (decode Config.default false 0x04C0800004#40 0) = true
    ∧ ofRegister (decode Config.default false 0x05C0210000#40 0) = true
    ∧ Config.default.accessSize = .b4 := by decide

theorem witness_OnlyRxReadHasSideEffect :
    (0x04C0800014#40).extractLsb' 36 4 = 0#4 ∧ (0x04C0800014#40).extractLsb' 32 1 = 0#1
    ∧ decodeIn busy ⟨0x04C0800014#40, 0⟩ ≠ .uartRdRx ∧ ∃ t, perform ⟨0x04C0800014#40, 0⟩ busy = .next t :=
  ⟨by decide, by decide, by decide, next_of_goesOn (by decide)⟩

/-- The keys at the edge of each clause. -/
theorem witness_MalformedKeysAreRefused :
    (0x0800000000#40).getLsbD 35 = true
    ∧ (0x6000000000#40).getLsbD 35 = false ∧ (0x6000000000#40).toNat / 2 ^ 36 = 6
    ∧ (0x77FFFFFFFF#40).getLsbD 35 = false ∧ (0x77FFFFFFFF#40).toNat / 2 ^ 36 = 7
    ∧ (0x8000000000#40).getLsbD 35 = false ∧ 8 ≤ (0x8000000000#40).toNat / 2 ^ 36
    ∧ (0x1100000000#40).getLsbD 35 = false ∧ (0x1000000003#40).getLsbD 35 = false
    ∧ (0x2000000100#40).getLsbD 35 = false ∧ (0x3000000001#40).getLsbD 35 = false
    ∧ (0x4000000001#40).getLsbD 35 = false ∧ (0x5000000002#40).getLsbD 35 = false := by decide

theorem witness_MalformedKeysAreRefused_arguments :
    (0x1100000000#40).toNat / 2 ^ 32 % 8 = 1
    ∧ (0x1000000003#40).toNat / 2 ^ 36 = 1 ∧ State.reset.cfg.numTimers = (0x1000000003#40).toNat % 2 ^ 32
    ∧ (0x2000000100#40).toNat / 2 ^ 36 = 2 ∧ (0x2000000100#40).toNat % 2 ^ 32 = 2 ^ 8
    ∧ (0x3000000001#40).toNat / 2 ^ 36 = 3 ∧ (0x3000000001#40).toNat % 2 ^ 32 = 1
    ∧ (0x4000000001#40).toNat / 2 ^ 36 = 4 ∧ (0x4000000001#40).toNat % 2 ^ 32 = 1
    ∧ (0x5000000002#40).toNat / 2 ^ 36 = 5 ∧ (0x5000000002#40).toNat % 2 ^ 32 = 2 := by decide

theorem witness_BusTransactionAlwaysCompletes :
    Legal State.reset ∧ (0x07FFFFFFFF#40).extractLsb' 36 4 = 0#4 ∧ (0x07FFFFFFFF#40).extractLsb' 35 1 = 0#1 := by
  unfold Legal; decide

theorem witness_FetchFromDeviceIsRefused :
    currentLine (scripted State.reset [.fetch 0xC0800000 .b4]) = some (.fetch 0xC0800000 .b4)
    ∧ (route (scripted State.reset [.fetch 0xC0800000 .b4]).cfg 0xC0800000).isDevice = true := by decide

theorem witness_ResetClearsDevicesOnly : State.reset.cfg.txReadyBit = 1 := by decide

theorem witness_CompositionLeavesResetValues : Config.default.txReadyBit = 1 := by decide

theorem witness_CompositionBuildsResetMachine :
    ∃ b, createBoard (files (some 8)) cfgRom0 = .ok b ∧ cfgRom0.romFile .rom0 = some "image0" := ⟨_, rfl, by decide⟩

theorem witness_FirstFatalErrorEndsComposition :
    cfgRom0.wf = true ∧ (⟨false, fun _ => none⟩ : Surroundings).cpuAvailable = false
    ∧ (files none).cpuAvailable = true
    ∧ cfgRom0.romFile .rom0 = some "image0" ∧ (files none).imageSize "image0" = none
    ∧ cfgRom1.wf = true ∧ cfgRom1.romFile .rom0 = none ∧ cfgRom1.romFile .rom1 = some "image1"
    ∧ (files none).imageSize "image1" = none
    ∧ (files (some 9)).imageSize "image0" = some 9 ∧ cfgRom0.flashSize .rom0 < 9
    ∧ (files (some 0x08000001)).imageSize "image1" = some 0x08000001 ∧ cfgRom1.flashSize .rom1 < 0x08000001
    ∧ (∀ k file, cfgRom0.romFile k = some file →
        ∃ n, (files (some 8)).imageSize file = some n ∧ n ≤ cfgRom0.flashSize k) := by
  refine ⟨by decide, rfl, rfl, rfl, rfl, by decide, rfl, rfl, rfl, rfl, by decide, rfl, by decide, ?_⟩
  intro k file _
  exact ⟨8, rfl, by cases k <;> decide⟩

theorem witness_ImageSizeBoundary :
    cfgRom0.wf = true ∧ (files (some 8)).cpuAvailable = true ∧ Slot.rom0 ≠ .rom1
    ∧ cfgRom0.romFile .rom0 = some "image0" ∧ cfgRom0.romFile .rom1 = none
    ∧ (files (some 8)).imageSize "image0" = some (cfgRom0.flashSize .rom0)
    ∧ (files (some 9)).imageSize "image0" = some (cfgRom0.flashSize .rom0 + 1)
    ∧ cfgRom1.wf = true ∧ cfgRom1.romFile .rom1 = some "image1" ∧ cfgRom1.romFile .rom0 = none := by decide

theorem witness_DecodeInvertsEncode :
    Config.default.wf = true
    ∧ ∀ i ∈ [Instr.timerWrControl 2 0xFFFFFFFF, .timerRdRsvd 0 0xFC, .uartWrRsvd 0x10 1, .uartRdRx,
        .ramAccess ⟨0x03FFFFFF, .b8, .write 1⟩, .busUnmapped ⟨0xFFFFFFFF, .b1, .read⟩, .timerTick 2, .uartReceive 0xFF,
        .refusedEventArg 0x1000000003#40],
      i.wf Config.default = true ∧ i.fitsState false = true := by decide

theorem witness_EncodeInvertsDecode :
    Config.default.wf = true ∧ (0x05C0210000#40).extractLsb' 36 4 = 0#4 ∧ (0x05C0210000#40).extractLsb' 35 1 = 0#1
    ∧ (0x05C0210000#40).extractLsb' 32 1 = 1#1 := by decide

theorem witness_DecodedOperationIsWellFormed : cfgRom1.wf = true ∧ cfgRom0.wf = true := by decide

theorem witness_StepRunsDecodedOperation :
    (scripted State.reset [.op ⟨0x05C0210000#40, 0⟩]).seq.script[(scripted State.reset [.op ⟨0x05C0210000#40, 0⟩]).seq.line]?
      = some (.op ⟨0x05C0210000#40, 0⟩) := by decide

/-- A POLL of STATUS, at its read: for RX_READY, which is 0, and for TX_READY, which is 1. -/
def polling (m : Word) : State := scripted State.reset [.poll 0xC0800014 m m [⟨0x2000000041#40, 0⟩, ⟨0x1000000000#40, 0⟩]]

theorem witness_PollRereadsUntilMatch :
    Legal (polling 1) ∧ (polling 1).seq.sub = 0
    ∧ (polling 1).seq.script[(polling 1).seq.line]?
        = some (.poll 0xC0800014 1 1 [⟨0x2000000041#40, 0⟩, ⟨0x1000000000#40, 0⟩])
    ∧ (run (polling 1) 0x04C0800014#40 0).map (fun s => s.port.data &&& 1) = some 0
    ∧ (run (polling 2) 0x04C0800014#40 0).map (fun s => s.port.data &&& 2) = some 2 := by unfold Legal; decide

theorem witness_PollBracesRunInOrder :
    (polling 1).seq.script[0]? = some (.poll 0xC0800014 1 1 [⟨0x2000000041#40, 0⟩, ⟨0x1000000000#40, 0⟩])
    ∧ ((polling 1).goto 0 1).seq.sub = 0 + 1 ∧ ((polling 1).goto 0 2).seq.sub = 1 + 1
    ∧ [(⟨0x2000000041#40, 0⟩ : Op), ⟨0x1000000000#40, 0⟩][1]? = some ⟨0x1000000000#40, 0⟩ := by decide

theorem witness_ExpectStopsFailedTest :
    (scripted State.reset [.expect (.data 0)]).seq.script[0]? = some (.expect (.data 0))
    ∧ (scripted State.reset [.expect (.data 0)]).port.data = 0
    ∧ (scripted State.reset [.expect (.data 1)]).port.data ≠ 1 := by decide

theorem witness_ScriptPerformsItsOperations :
    ∃ t, performAll [⟨0x05C0210000#40, 0⟩, ⟨0x1000000000#40, 0⟩, ⟨0x04C021000C#40, 0⟩] State.reset = .next t :=
  next_of_goesOn (by decide)

/-- By number and by name. -/
theorem witness_TicksExpandToTickLines :
    operandValue Config.default [] (.num 2) = some (2#32).toNat
    ∧ operandValue Config.default [] (.num 0) = some 0
    ∧ operandValue Config.default [("K", 65535)] (.name "K") = some 65535
    ∧ operandValue Config.default [("N", 2 ^ 32 - 1)] (.name "N") = some (0xFFFFFFFF#32).toNat := by decide

theorem busy_scripted_inv : (scripted busy [.op ⟨0x1000000000#40, 0⟩]).Inv where
  config := busy_inv.config
  timerCount := busy_inv.timerCount
  timers := busy_inv.timers
  uart := busy_inv.uart
  endpoint := busy_inv.endpoint
  unconnected := busy_inv.unconnected
  entry := busy_inv.entry

theorem witness_StepKeepsInvariant :
    (scripted busy [.op ⟨0x1000000000#40, 0⟩]).Inv
    ∧ ∃ t, step (scripted busy [.op ⟨0x1000000000#40, 0⟩]) = .next t :=
  ⟨busy_scripted_inv, next_of_goesOn (by decide)⟩

theorem witness_CompositionIsNeverRewritten :
    ∃ t, step (scripted busy [.op ⟨0x4000000000#40, 0⟩]) = .next t := next_of_goesOn (by decide)

theorem witness_RecordsOnlyGrow :
    (∃ t, step (scripted busy [.op ⟨0x04C0800000#40, 0⟩]) = .next t)
    ∧ ∃ t, exec (.uartWrTx 0x41) State.reset = .next t ∧ t.ep.out ≠ State.reset.ep.out :=
  ⟨next_of_goesOn (by decide), ⟨_, rfl, by decide⟩⟩

theorem witness_OnlyOverDeliveryFaultsRun :
    ∃ t, exec (.uartReceiveViolation 0x42) busy = .next t ∧ busy.faulted = false ∧ t.faulted = true :=
  ⟨_, rfl, by decide⟩

end Sys2Proof.Tests
end

/-! SUPPORT. What an operation can do to the devices, and the invariant of the state along every step (R4, R7, R10 to R12,
R19, R20, R69, R88). -/

namespace Sys2Proof.Machine

/-! ### What an operation can do to the devices -/

/-- `t` has the configuration, the timers, the UART, the endpoint and the entry point of `s`: at most the logs, `perr`, the
response port, the model's own records and the script's position differ. -/
structure SameDevices (s t : State) : Prop where
  cfg : t.cfg = s.cfg
  timers : t.timers = s.timers
  uart : t.uart = s.uart
  ep : t.ep = s.ep
  entry : t.entry = s.entry

theorem sameDevices_goto (s : State) (line sub : Nat) : SameDevices s (s.goto line sub) := ⟨rfl, rfl, rfl, rfl, rfl⟩

theorem sameDevices_readOk (s : State) (d : Word) : SameDevices s (s.readOk d) := ⟨rfl, rfl, rfl, rfl, rfl⟩

theorem sameDevices_writeOk (s : State) : SameDevices s s.writeOk := ⟨rfl, rfl, rfl, rfl, rfl⟩

theorem sameDevices_invalidRead (s : State) (dev : Device) (off : Nat) : SameDevices s (s.invalidRead dev off) :=
  ⟨rfl, rfl, rfl, rfl, rfl⟩

theorem sameDevices_invalidWrite (s : State) (dev : Device) (off : Nat) : SameDevices s (s.invalidWrite dev off) :=
  ⟨rfl, rfl, rfl, rfl, rfl⟩

theorem sameDevices_busError (s : State) (kind : RejectKind) (x : Access) : SameDevices s (s.busError kind x) := by
  constructor <;> simp

theorem sameDevices_forward (s : State) (m : MemTarget) (x : Access) : SameDevices s (s.forward m x) := by
  constructor <;> simp

/-- What an operation can do to the devices: nothing, or one of the six changes of R63, R69, R75, R77, R83 and R112. -/
inductive DeviceEffect (s : State) : Instr → State → Prop
  | untouched {i : Instr} {t : State} (same : SameDevices s t) : DeviceEffect s i t
  | started {n : Nat} {d : Word} {u : Timer} (timer : s.timers[n]? = some u) :
    DeviceEffect s (.timerWrControl n d) (s.setTimer n (startedTimer s.cfg)).writeOk
  | ticked {n : Nat} {u : Timer} (timer : s.timers[n]? = some u) :
    DeviceEffect s (.timerTick n) (s.setTimer n (tickTimer s.cfg u))
  | consumed : DeviceEffect s .uartRdRx s.consumeRx
  | sent {d : Word} : DeviceEffect s (.uartWrTx d) (s.transmit d).writeOk
  | accepted {i : Instr} {b : Byte} (delivery : i = .uartReceive b ∨ i = .uartReceiveViolation b)
    (connected : s.ep.connected = true) (notReady : rxReady s.cfg s.uart = false) : DeviceEffect s i (s.acceptByte b)
  | cleared : DeviceEffect s .reset s.resetBlock

/-- A delivery changes the devices only by accepting its byte: a violation only sets `perr` (R83, R84). -/
theorem deliver_deviceEffect {i : Instr} {b : Byte} {s t : State} (hi : i = .uartReceive b ∨ i = .uartReceiveViolation b)
    (h : deliver b s = .next t) : DeviceEffect s i t := by
  obtain ⟨hc, ⟨-, rfl⟩ | ⟨hr, rfl⟩⟩ := deliver_next h
  · exact .untouched ⟨rfl, rfl, rfl, rfl, rfl⟩
  · exact .accepted hi hc hr

/-- The inversion of `exec`, over the rows of the opcode table: an operation that completes has one of the listed effects on
the devices. -/
theorem exec_deviceEffect {i : Instr} {s t : State} (h : exec i s = .next t) : DeviceEffect s i t := by
  cases i with
  | timerWrControl n d =>
    obtain ⟨u, hu, hk⟩ := withTimer_next h
    obtain rfl := Host.Outcome.next.inj hk
    exact .started hu
  | timerTick n =>
    obtain ⟨u, hu, hk⟩ := withTimer_next h
    obtain rfl := Host.Outcome.next.inj hk
    exact .ticked hu
  | timerRdValue n =>
    obtain ⟨u, -, hk⟩ := withTimer_next h
    obtain rfl := Host.Outcome.next.inj hk
    exact .untouched (sameDevices_readOk _ _)
  | uartRdRx => obtain rfl := Host.Outcome.next.inj h; exact .consumed
  | uartWrTx d => obtain rfl := Host.Outcome.next.inj h; exact .sent
  | reset => obtain rfl := Host.Outcome.next.inj h; exact .cleared
  | uartReceive b => exact deliver_deviceEffect (.inl rfl) h
  | uartReceiveViolation b => exact deliver_deviceEffect (.inr rfl) h
  | timerRdControl | timerRdRsvd | uartRdTx | uartRdRsvd =>
    obtain rfl := Host.Outcome.next.inj h
    exact .untouched (sameDevices_invalidRead _ _ _)
  | timerWrValue | timerWrRsvd | uartWrRx | uartWrRsvd =>
    obtain rfl := Host.Outcome.next.inj h
    exact .untouched (sameDevices_invalidWrite _ _ _)
  | uartRdSt => obtain rfl := Host.Outcome.next.inj h; exact .untouched (sameDevices_readOk _ _)
  | uartWrSt => obtain rfl := Host.Outcome.next.inj h; exact .untouched (sameDevices_writeOk _)
  | busUnmapped | busBadSize | busMisaligned =>
    obtain rfl := Host.Outcome.next.inj h
    exact .untouched (sameDevices_busError _ _ _)
  | ramAccess | romAccess =>
    obtain rfl := Host.Outcome.next.inj h
    exact .untouched (sameDevices_forward _ _ _)
  | uartCanReceive | uartEpEvent =>
    obtain rfl := Host.Outcome.next.inj h
    exact .untouched ⟨rfl, rfl, rfl, rfl, rfl⟩
  | refusedRsv | refusedKind67 | refusedKind815 | refusedEventArg => cases h

/-! ### From operations to steps -/

/-- An instruction fetch that is not refused does what the access of the same address does (R31, R32, R46). -/
theorem fetch_eq_exec {a : Addr} {z : Size} {s t : State} (h : fetch a z s = .next t) : ∃ i, exec i s = .next t := by
  obtain ⟨m, rfl⟩ | rfl := fetch_next h
  · cases m with
    | ram => exact ⟨.ramAccess ⟨a, z, .read⟩, rfl⟩
    | rom k => exact ⟨.romAccess k ⟨a, z, .read⟩, rfl⟩
  · exact ⟨.busUnmapped ⟨a, z, .read⟩, rfl⟩

/-- What every move of the script's position keeps and every operation keeps, every step keeps. -/
theorem step_keeps {P : State → Prop} (hgoto : ∀ s line sub, P s → P (s.goto line sub))
    (hexec : ∀ i s t, exec i s = .next t → P s → P t) {s t : State} (h : step s = .next t) (hs : P s) : P t := by
  rcases step_next h with ⟨-, rfl⟩ | ⟨o, -, ho⟩ | ⟨a, m, v, env, r, -, hr, line, sub, rfl⟩
    | ⟨a, m, v, env, o, line, sub, -, -, ho⟩ | ⟨line, sub, rfl⟩ | ⟨a, z, -, hf⟩
  · exact hs
  · exact hexec _ _ _ ho (hgoto _ _ _ hs)
  · exact hgoto _ _ _ (hexec _ _ _ hr hs)
  · exact hexec _ _ _ ho (hgoto _ _ _ hs)
  · exact hgoto _ _ _ hs
  · obtain ⟨i, hi⟩ := fetch_eq_exec hf
    exact hexec _ _ _ hi (hgoto _ _ _ hs)

/-! ### The invariant of one timer -/

theorem Timer.inv_reset (c : Config) : Timer.reset.Inv c :=
  ⟨BitVec.le_def.mpr (Nat.zero_le _), fun _ => rfl, fun _ _ hm => Mode.noConfusion hm⟩

theorem Timer.inv_started (c : Config) : (startedTimer c).Inv c :=
  ⟨BitVec.le_refl _, fun hm => Mode.noConfusion hm, fun _ hl _ => hl⟩

/-- The next count is within the limit where the count was (R12, R69). -/
theorem nextCount_le_limit {c : Config} {cnt : Word} (h : cnt ≤ c.timerLimit) : nextCount c cnt ≤ c.timerLimit := by
  rw [BitVec.le_def] at h ⊢
  rcases nextCount_cases c cnt with ⟨-, -, hn⟩ | ⟨-, -, hn⟩ | ⟨-, -, hn⟩ | ⟨-, -, hn⟩ <;> rw [hn] <;> omega

/-- With `ZERO_VISIBLE = false` and a limit that is not 0, counting never shows 0: a count of 1 reloads (R69). -/
theorem nextCount_ne_zero {c : Config} (hz : c.zeroVisible = false) (hl : c.timerLimit ≠ 0#32) (cnt : Word) :
    nextCount c cnt ≠ 0#32 := by
  rcases nextCount_cases c cnt with ⟨-, -, hn⟩ | ⟨hv, -⟩ | ⟨-, h2, hn⟩ | ⟨hv, -⟩
  · rwa [hn]
  · simp [hz] at hv
  · intro h0
    simp only [h0, BitVec.toNat_ofNat] at hn
    omega
  · simp [hz] at hv

theorem Timer.Inv.tick {c : Config} {u : Timer} (h : u.Inv c) : (tickTimer c u).Inv c := by
  cases hm : u.mode with
  | stopped => rwa [tickTimer_stopped c u hm]
  | running =>
    rw [tickTimer_running c u hm]
    exact ⟨nextCount_le_limit h.1, fun hs => Mode.noConfusion hs, fun hz hl _ => nextCount_ne_zero hz hl _⟩

/-! ### The invariant of the UART -/

theorem Uart.inv_reset (c : Config) : (Uart.reset c).Inv c :=
  ⟨.inl rfl, by simp [Uart.reset]⟩

/-- Accepting a byte leaves TX_READY and RX_READY set, and the byte in RX[7:0] (R19, R83). -/
theorem Uart.Inv.accept {c : Config} {u : Uart} (h : u.Inv c) (b : Byte) :
    (setRxReady c { u with rx := rxWord b }).Inv c := by
  obtain ⟨hst | hst, -⟩ := h
  all_goals
    refine ⟨.inr ?_, ?_⟩
    · simp [setRxReady, hst, BitVec.or_assoc]
    · ext j; simp [rxWord]

/-- Consuming a byte leaves TX_READY alone set, the two being two bits (R17, R19, R75). -/
theorem Uart.Inv.consume {c : Config} {u : Uart} (hbits : c.rxReadyBit ≠ c.txReadyBit) (h : u.Inv c) :
    (clearRxReady c u).Inv c := by
  obtain ⟨hst, hrx⟩ := h
  refine ⟨.inl (BitVec.eq_of_getLsbD_eq fun j _ => ?_), hrx⟩
  have hne : (c.rxReadyBit : Nat) ≠ c.txReadyBit := fun he => hbits (Fin.ext he)
  rw [clearRxReady_getLsbD, statusBit_getLsbD]
  by_cases hj : j = c.rxReadyBit
  · simp [hj, hne]
  · rcases hst with hst | hst <;> simp [hst, statusBit_getLsbD, hj]

/-! ### The invariant of the state -/

theorem State.Inv.readyBits_ne {s : State} (h : s.Inv) : s.cfg.rxReadyBit ≠ s.cfg.txReadyBit := by
  obtain ⟨-, -, -, -, -, -, -, -, -, -, -, hne⟩ := (config_wf_iff s.cfg).mp h.config
  exact hne

/-- The invariant speaks of the devices only. -/
theorem State.Inv.of_sameDevices {s t : State} (same : SameDevices s t) (h : s.Inv) : t.Inv := by
  obtain ⟨hcfg, htimers, huart, hep, hentry⟩ := same
  constructor <;> simp only [hcfg, htimers, huart, hep, hentry]
  exacts [h.config, h.timerCount, h.timers, h.uart, h.endpoint, h.unconnected, h.entry]

theorem State.Inv.setTimer {s : State} (h : s.Inv) (n : Nat) {u : Timer} (hu : u.Inv s.cfg) : (s.setTimer n u).Inv where
  config := h.config
  timerCount := by simpa using h.timerCount
  timers v hv := by
    obtain hv | rfl := List.mem_or_eq_of_mem_set hv
    · exact h.timers v hv
    · exact hu
  uart := h.uart
  endpoint := h.endpoint
  unconnected := h.unconnected
  entry := h.entry

theorem State.Inv.consumeRx {s : State} (h : s.Inv) : s.consumeRx.Inv where
  config := h.config
  timerCount := h.timerCount
  timers := h.timers
  uart := h.uart.consume h.readyBits_ne
  endpoint := h.endpoint
  unconnected hc := ⟨by simp, (h.unconnected hc).2⟩
  entry := h.entry

/-- With no endpoint a transmission emits nothing (R88). -/
theorem State.Inv.transmit {s : State} (h : s.Inv) (d : Word) : (s.transmit d).Inv where
  config := h.config
  timerCount := h.timerCount
  timers := h.timers
  uart := h.uart
  endpoint := by simpa using h.endpoint
  unconnected hc := by
    have hc' : s.ep.connected = false := by simpa using hc
    simpa [Endpoint.emit_out, hc'] using h.unconnected hc'
  entry := h.entry

/-- A byte is accepted only with an endpoint bound, so the clause on a machine without one is not touched (R88). -/
theorem State.Inv.acceptByte {s : State} (h : s.Inv) (b : Byte) (hc : s.ep.connected = true) : (s.acceptByte b).Inv where
  config := h.config
  timerCount := h.timerCount
  timers := h.timers
  uart := h.uart.accept b
  endpoint := h.endpoint
  unconnected hn := by simp [hc] at hn
  entry := h.entry

theorem State.Inv.resetBlock {s : State} (h : s.Inv) : s.resetBlock.Inv where
  config := h.config
  timerCount := by simpa using h.timerCount
  timers v hv := by
    obtain ⟨u, -, rfl⟩ := List.mem_map.mp hv
    exact Timer.inv_reset s.cfg
  uart := by simpa using Uart.inv_reset s.cfg
  endpoint := h.endpoint
  unconnected hc := ⟨by simp [h.readyBits_ne], (h.unconnected hc).2⟩
  entry := h.entry

theorem exec_keeps_inv {i : Instr} {s t : State} (h : exec i s = .next t) (hs : s.Inv) : t.Inv := by
  cases exec_deviceEffect h with
  | untouched same => exact hs.of_sameDevices same
  | started => exact (hs.setTimer _ (Timer.inv_started s.cfg)).of_sameDevices (sameDevices_writeOk _)
  | ticked timer => exact hs.setTimer _ (hs.timers _ (List.mem_of_getElem? timer)).tick
  | consumed => exact hs.consumeRx
  | sent => exact (hs.transmit _).of_sameDevices (sameDevices_writeOk _)
  | accepted _ connected _ => exact hs.acceptByte _ connected
  | cleared => exact hs.resetBlock

/-- Settles O50: moves of the script's position leave the devices, and each effect of an operation on the devices keeps the
invariant. -/
theorem stepKeepsInvariant : Obligations.StepKeepsInvariant := by
  intro s t hs h
  exact step_keeps (fun s line sub hs => hs.of_sameDevices (sameDevices_goto s line sub))
    (fun _ _ _ he hs => exec_keeps_inv he hs) h hs

end Sys2Proof.Machine

/-! SUPPORT. The composed state, what an operation does to the devices, the flags and the records (R7, R19 to R26), and
what every step keeps besides the invariant. -/

namespace Sys2Proof.Machine

open Claims

/-! ### The composed state -/

/-- A composed machine of a legal configuration meets the invariant (R26). -/
theorem State.inv_ofConfig {c : Config} (h : c.wf = true) : (State.ofConfig c).Inv where
  config := h
  timerCount := List.length_replicate
  timers u hu := by
    obtain rfl := List.eq_of_mem_replicate hu
    exact Timer.inv_reset c
  uart := Uart.inv_reset c
  endpoint := rfl
  unconnected _ := by
    obtain ⟨-, -, -, -, -, -, -, -, -, -, -, hne⟩ := (config_wf_iff c).mp h
    exact ⟨rxReady_reset c hne, rfl⟩
  entry := rfl

/-- With TX_READY at bit 1 its word is 2 (R3, R17). -/
theorem statusBit_one : statusBit 1 = 0x00000002#32 := by decide

/-- Settles O36: composition builds the timers, the UART and the records with R26's values in them. -/
theorem compositionLeavesResetValues : Obligations.CompositionLeavesResetValues := by
  intro c
  have hst : c.txReadyBit = 1 → (State.ofConfig c).uart.st = 0x00000002#32 := by
    intro hb
    show statusBit c.txReadyBit = _
    rw [hb, statusBit_one]
  exact ⟨List.length_replicate, fun _ hu => List.eq_of_mem_replicate hu, rfl, hst, rfl, rfl, rfl, rfl, rfl⟩

/-- Settles O51: the default configuration is a legal one. -/
theorem resetMeetsInvariant : Obligations.ResetMeetsInvariant :=
  State.inv_ofConfig (by decide)

/-! ### Timers and UART apart -/

/-- Settles O8: of the effects on the devices, only the reset's is on both sides. A violation leaves the timers. -/
theorem devicesShareNoState : Obligations.DevicesShareNoState := by
  intro s t i h hi
  cases exec_deviceEffect h with
  | untouched same => exact .inl same.timers
  | started | ticked => exact .inr ⟨rfl, rfl, rfl⟩
  | consumed | sent | accepted => exact .inl rfl
  | cleared => exact absurd rfl hi

/-! ### The mode, seen through VALUE -/

/-- With R3's limit and mask, VALUE shows the whole count (R12, R15). -/
theorem valueData_eq_cnt {c : Config} {u : Timer} (h : u.Inv c) (hl : c.timerLimit = 0xFFFF#32)
    (hm : c.valueMask = 0xFFFF#32) : valueData c u = u.cnt := by
  have hle : u.cnt.toNat ≤ 0xFFFF := by
    have := BitVec.le_def.mp h.1
    simpa [hl] using this
  apply BitVec.eq_of_toNat_eq
  rw [valueData_toNat hm, Nat.mod_eq_of_lt (by omega)]

/-- With `ZERO_VISIBLE = false` and a limit that is not 0, a timer holds 0 exactly when STOPPED (R11, R25, R69). -/
theorem Timer.Inv.cnt_eq_zero_iff {c : Config} {u : Timer} (h : u.Inv c) (hz : c.zeroVisible = false)
    (hl : c.timerLimit ≠ 0#32) : u.cnt = 0#32 ↔ u.mode = .stopped := by
  obtain ⟨-, hstopped, hrunning⟩ := h
  cases hm : u.mode with
  | stopped => exact iff_of_true (hstopped hm) rfl
  | running => exact iff_of_false (hrunning hz hl hm) Mode.noConfusion

theorem Timer.mode_ne_stopped_iff (u : Timer) : u.mode ≠ .stopped ↔ u.mode = .running := by
  cases u.mode <;> decide

/-- Settles O9: VALUE shows the whole count, and the count tells the mode. -/
theorem valueReadTellsMode : Obligations.ValueReadTellsMode := by
  intro s n u hs hz hl hm hu
  have hinv : u.Inv s.cfg := hs.timers u (List.mem_of_getElem? hu)
  have hzero : valueData s.cfg u = 0#32 ↔ u.mode = .stopped := by
    rw [valueData_eq_cnt hinv hl hm]
    exact hinv.cnt_eq_zero_iff hz (by rw [hl]; decide)
  exact ⟨_, withTimer_some _ hu, hzero, (not_congr hzero).trans u.mode_ne_stopped_iff⟩

/-! ### The flags -/

/-- What an operation can do to RX_READY (R24). -/
theorem DeviceEffect.rxReady_cases {s t : State} {i : Instr} (hbits : s.cfg.rxReadyBit ≠ s.cfg.txReadyBit)
    (h : DeviceEffect s i t) :
    rxReady t.cfg t.uart = rxReady s.cfg s.uart
    ∨ (rxReady t.cfg t.uart = true ∧ isDelivery i = true)
    ∨ (rxReady t.cfg t.uart = false ∧ (i = .uartRdRx ∨ i = .reset)) := by
  cases h with
  | untouched same => exact .inl (by rw [same.cfg, same.uart])
  | started | ticked | sent => exact .inl rfl
  | consumed => exact .inr (.inr ⟨rxReady_clearRxReady _ _, .inl rfl⟩)
  | accepted delivery =>
    refine .inr (.inl ⟨rxReady_setRxReady _ _, ?_⟩)
    obtain rfl | rfl := delivery <;> rfl
  | cleared => exact .inr (.inr ⟨by simp [hbits], .inr rfl⟩)

/-- What an operation can do to TX_READY (R24): RX_READY, which an RX read and a delivery write, is another bit. -/
theorem DeviceEffect.txReady_cases {s t : State} {i : Instr} (hbits : s.cfg.rxReadyBit ≠ s.cfg.txReadyBit)
    (h : DeviceEffect s i t) :
    txReady t.cfg t.uart = txReady s.cfg s.uart ∨ (txReady t.cfg t.uart = true ∧ i = .reset) := by
  cases h with
  | untouched same => exact .inl (by rw [same.cfg, same.uart])
  | started | ticked | sent => exact .inl rfl
  | consumed => exact .inl (txReady_clearRxReady _ _ hbits)
  | accepted => exact .inl (txReady_setRxReady _ _ hbits)
  | cleared => exact .inr ⟨by simp, rfl⟩

/-- Writing timer `n` shows in its own mode and in no other's. -/
theorem running_setTimer {s : State} {n : Nat} {u : Timer} (hu : s.timers[n]? = some u) (v : Timer) (m : Nat) :
    running (s.setTimer n v) m = if m = n then decide (v.mode = .running) else running s m := by
  obtain ⟨hn, -⟩ := List.getElem?_eq_some_iff.mp hu
  by_cases hm : m = n
  · subst hm
    simp [running, hn]
  · simp [running, hm, List.getElem?_set_ne (Ne.symm hm)]

theorem running_resetBlock (s : State) (n : Nat) : running s.resetBlock n = false := by
  cases hu : s.timers[n]? <;> simp [running, hu, Timer.reset]

/-- What an operation can do to RUNNING of a timer (R24): a tick keeps every mode. -/
theorem DeviceEffect.running_cases {s t : State} {i : Instr} (h : DeviceEffect s i t) (n : Nat) :
    running t n = running s n
    ∨ (running t n = true ∧ ∃ d, i = .timerWrControl n d)
    ∨ (running t n = false ∧ i = .reset) := by
  cases h with
  | untouched same => exact .inl (by rw [running, running, same.timers])
  | @started m d u timer =>
    have hrun : running (s.setTimer m (startedTimer s.cfg)).writeOk n = if n = m then true else running s n :=
      running_setTimer timer _ n
    by_cases hm : n = m
    · exact .inr (.inl ⟨by rw [hrun, if_pos hm], d, by rw [hm]⟩)
    · exact .inl (by rw [hrun, if_neg hm])
  | @ticked m u timer =>
    refine .inl ?_
    rw [running_setTimer timer, tickTimer_mode]
    by_cases hm : n = m
    · simp [running, hm, timer]
    · rw [if_neg hm]
  | consumed | sent | accepted => exact .inl rfl
  | cleared => exact .inr (.inr ⟨running_resetBlock s n, rfl⟩)

/-- Settles O23, by what an operation can do to each flag. -/
theorem flagsWrittenOnlyAsListed : Obligations.FlagsWrittenOnlyAsListed := by
  intro s t i hbits h
  have heff := exec_deviceEffect h
  have hrx := heff.rxReady_cases hbits
  have htx := heff.txReady_cases hbits
  have hrun := heff.running_cases
  refine ⟨?_, ?_, ?_, ?_, fun n => ?_, fun n => ?_⟩
  · intro h0 h1; simpa [h0, h1] using hrx
  · intro h0 h1; simpa [h0, h1] using hrx
  · intro h0 h1; simpa [h0, h1] using htx
  · intro h0
    obtain he | ⟨h1, -⟩ := htx
    · exact he.trans h0
    · exact h1
  · intro h0 h1; simpa [h0, h1] using hrun n
  · intro h0 h1; simpa [h0, h1] using hrun n

/-! ### The UART's registers along a step -/

/-- What R19 says of the UART, the two STATUS bits being two bits. -/
def UartLegal (s : State) : Prop := s.cfg.rxReadyBit ≠ s.cfg.txReadyBit ∧ s.uart.Inv s.cfg

theorem exec_keeps_uartLegal {i : Instr} {s t : State} (h : exec i s = .next t) (hs : UartLegal s) : UartLegal t := by
  obtain ⟨hbits, hu⟩ := hs
  cases exec_deviceEffect h with
  | untouched same =>
    rw [UartLegal, same.cfg, same.uart]
    exact ⟨hbits, hu⟩
  | started | ticked | sent => exact ⟨hbits, hu⟩
  | consumed => exact ⟨hbits, hu.consume hbits⟩
  | accepted => exact ⟨hbits, hu.accept _⟩
  | cleared => exact ⟨hbits, by simpa using Uart.inv_reset s.cfg⟩

/-- With R3's bits a legal STATUS is 2 or 3 (R19). -/
theorem Uart.Inv.st_eq_two_or_three {c : Config} {u : Uart} (hrx : c.rxReadyBit = 0) (htx : c.txReadyBit = 1)
    (h : u.Inv c) : u.st = 0x00000002#32 ∨ u.st = 0x00000003#32 := by
  obtain ⟨hst, -⟩ := h
  rw [hrx, htx] at hst
  exact hst.imp (·.trans (by decide)) (·.trans (by decide))

/-- Settles O22: the reset values are legal, and every operation's effect on the UART keeps them so. -/
theorem uartRegistersStayLegal : Obligations.UartRegistersStayLegal := by
  refine ⟨Uart.inv_reset, fun s t hbits hu h => ?_, fun _ _ => Uart.Inv.st_eq_two_or_three⟩
  have ht : UartLegal t :=
    step_keeps (P := UartLegal) (fun _ _ _ hs => hs) (fun _ _ _ he hs => exec_keeps_uartLegal he hs) h ⟨hbits, hu⟩
  exact ht.2

/-! ### What relates a state to the next -/

/-- A preorder that holds across every move of the script's position and every operation holds across every step. -/
theorem step_relates {R : State → State → Prop} (hrefl : ∀ s, R s s) (htrans : ∀ {s t u}, R s t → R t u → R s u)
    (hgoto : ∀ s line sub, R s (s.goto line sub)) (hexec : ∀ {i s t}, exec i s = .next t → R s t)
    {s t : State} (h : step s = .next t) : R s t :=
  step_keeps (P := R s) (fun u line sub hu => htrans hu (hgoto u line sub))
    (fun _ _ _ he hu => htrans hu (hexec he)) h (hrefl s)

/-- `t` has everything of `s` that composition fixed (R7, R10, R20). -/
structure SameComposition (s t : State) : Prop where
  cfg : t.cfg = s.cfg
  entry : t.entry = s.entry
  connected : t.ep.connected = s.ep.connected
  timerCount : t.timers.length = s.timers.length

theorem SameComposition.refl (s : State) : SameComposition s s := ⟨rfl, rfl, rfl, rfl⟩

theorem SameComposition.trans {s t u : State} (h : SameComposition s t) (h' : SameComposition t u) :
    SameComposition s u :=
  ⟨h'.cfg.trans h.cfg, h'.entry.trans h.entry, h'.connected.trans h.connected, h'.timerCount.trans h.timerCount⟩

theorem SameDevices.sameComposition {s t : State} (h : SameDevices s t) : SameComposition s t :=
  ⟨h.cfg, h.entry, by rw [h.ep], by rw [h.timers]⟩

theorem exec_sameComposition {i : Instr} {s t : State} (h : exec i s = .next t) : SameComposition s t := by
  cases exec_deviceEffect h with
  | untouched same => exact same.sameComposition
  | started | ticked => exact ⟨rfl, rfl, rfl, by simp⟩
  | consumed | accepted => exact ⟨rfl, rfl, rfl, rfl⟩
  | sent => exact ⟨rfl, rfl, by simp, rfl⟩
  | cleared => exact ⟨rfl, rfl, rfl, by simp⟩

/-- Settles O52, through the relation that every operation and every move of the position keeps. -/
theorem compositionIsNeverRewritten : Obligations.CompositionIsNeverRewritten := by
  intro s t h
  have hsame : SameComposition s t :=
    step_relates SameComposition.refl SameComposition.trans
      (fun s line sub => (sameDevices_goto s line sub).sameComposition) exec_sameComposition h
  exact ⟨hsame.cfg, hsame.entry, hsame.connected, hsame.timerCount⟩

/-! ### The records -/

/-- What an operation can do to the logs and `perr`: nothing, one entry of one log, or the violation of R84. -/
inductive RecordEffect (s : State) : Instr → State → Prop
  | kept {i : Instr} {t : State} (ilog : t.ilog = s.ilog) (rlog : t.rlog = s.rlog) (perr : t.perr = s.perr) :
    RecordEffect s i t
  | invalid {i : Instr} {t : State} {e : InvalidEntry} (ilog : t.ilog = s.ilog ++ [e]) (rlog : t.rlog = s.rlog)
    (perr : t.perr = s.perr) : RecordEffect s i t
  | rejected {i : Instr} {t : State} {e : RejectEntry} (ilog : t.ilog = s.ilog) (rlog : t.rlog = s.rlog ++ [e])
    (perr : t.perr = s.perr) : RecordEffect s i t
  | violated {i : Instr} {b : Byte} (delivery : isDelivery i = true) (ready : rxReady s.cfg s.uart = true) :
    RecordEffect s i (s.protocolViolation b)

theorem deliver_recordEffect {i : Instr} {b : Byte} {s t : State} (hi : isDelivery i = true)
    (h : deliver b s = .next t) : RecordEffect s i t := by
  obtain ⟨-, ⟨hr, rfl⟩ | ⟨-, rfl⟩⟩ := deliver_next h
  · exact .violated hi hr
  · exact .kept rfl rfl rfl

/-- The inversion of `exec` for the records, over the rows of the opcode table. -/
theorem exec_recordEffect {i : Instr} {s t : State} (h : exec i s = .next t) : RecordEffect s i t := by
  cases i with
  | timerWrControl | timerTick | timerRdValue =>
    obtain ⟨u, -, hk⟩ := withTimer_next h
    obtain rfl := Host.Outcome.next.inj hk
    exact .kept rfl rfl rfl
  | timerRdControl | timerRdRsvd | uartRdTx | uartRdRsvd | timerWrValue | timerWrRsvd | uartWrRx | uartWrRsvd =>
    obtain rfl := Host.Outcome.next.inj h
    exact .invalid rfl rfl rfl
  | busUnmapped | busBadSize | busMisaligned =>
    obtain rfl := Host.Outcome.next.inj h
    exact .rejected (State.busError_ilog _ _ _) (State.busError_rlog _ _ _) (State.busError_perr _ _ _)
  | ramAccess | romAccess =>
    obtain rfl := Host.Outcome.next.inj h
    exact .kept (State.forward_ilog _ _ _) (State.forward_rlog _ _ _) (State.forward_perr _ _ _)
  | uartReceive | uartReceiveViolation => exact deliver_recordEffect rfl h
  | uartRdRx | uartRdSt | uartWrTx | uartWrSt | uartCanReceive | uartEpEvent | reset =>
    obtain rfl := Host.Outcome.next.inj h
    exact .kept rfl rfl rfl
  | refusedRsv | refusedKind67 | refusedKind815 | refusedEventArg => cases h

/-- Settles O54: a violation is the only effect on `perr`. -/
theorem onlyOverDeliveryFaultsRun : Obligations.OnlyOverDeliveryFaultsRun := by
  intro s t i h hs ht
  have hchanged : t.perr ≠ s.perr := by
    rw [show s.perr = false from hs, show t.perr = true from ht]
    decide
  cases exec_recordEffect h with
  | kept _ _ perr | invalid _ _ perr | rejected _ _ perr => exact absurd perr hchanged
  | violated delivery ready => exact ⟨delivery, ready⟩

/-- What an operation can do to the stream: nothing, or a TX write's byte (R77, R88). -/
theorem exec_out_cases {i : Instr} {s t : State} (h : exec i s = .next t) :
    t.ep.out = s.ep.out ∨ ∃ d, i = .uartWrTx d ∧ t.ep.out = s.ep.out ++ [txByte d] := by
  cases exec_deviceEffect h with
  | untouched same => exact .inl (by rw [same.ep])
  | started | ticked | consumed | accepted | cleared => exact .inl rfl
  | @sent d =>
    have hout : (s.transmit d).writeOk.ep.out = if s.ep.connected then s.ep.out ++ [txByte d] else s.ep.out :=
      Endpoint.emit_out _ _
    cases hc : s.ep.connected
    · exact .inl (by rw [hout, hc]; rfl)
    · exact .inr ⟨d, rfl, by rw [hout, hc]; rfl⟩

/-- The records of `t` continue those of `s` (R20 to R23). -/
structure RecordsContinue (s t : State) : Prop where
  out : s.ep.out <+: t.ep.out
  ilog : s.ilog <+: t.ilog
  rlog : s.rlog <+: t.rlog
  perr : s.perr = true → t.perr = true

theorem RecordsContinue.refl (s : State) : RecordsContinue s s :=
  ⟨List.prefix_rfl, List.prefix_rfl, List.prefix_rfl, id⟩

theorem RecordsContinue.goto (s : State) (line sub : Nat) : RecordsContinue s (s.goto line sub) :=
  ⟨List.prefix_rfl, List.prefix_rfl, List.prefix_rfl, id⟩

theorem RecordsContinue.trans {s t u : State} (h : RecordsContinue s t) (h' : RecordsContinue t u) :
    RecordsContinue s u :=
  ⟨h.out.trans h'.out, h.ilog.trans h'.ilog, h.rlog.trans h'.rlog, h'.perr ∘ h.perr⟩

theorem exec_recordsContinue {i : Instr} {s t : State} (h : exec i s = .next t) : RecordsContinue s t := by
  have hout : s.ep.out <+: t.ep.out := by
    obtain he | ⟨d, -, he⟩ := exec_out_cases h <;> simp [he]
  cases exec_recordEffect h with
  | kept ilog rlog perr | invalid ilog rlog perr | rejected ilog rlog perr =>
    exact ⟨hout, by simp [ilog], by simp [rlog], perr.trans⟩
  | violated => exact ⟨hout, List.prefix_rfl, List.prefix_rfl, fun _ => rfl⟩

/-- Settles O53: operations continue the records, and so steps do; a TX write alone adds to the stream. -/
theorem recordsOnlyGrow : Obligations.RecordsOnlyGrow := by
  constructor
  · intro s t h
    have hcont : RecordsContinue s t :=
      step_relates RecordsContinue.refl RecordsContinue.trans RecordsContinue.goto exec_recordsContinue h
    exact ⟨hcont.out, hcont.ilog, hcont.rlog, hcont.perr⟩
  · intro s t i h hne
    obtain he | ⟨d, hi, -⟩ := exec_out_cases h
    · exact absurd he hne
    · exact ⟨d, hi⟩

end Sys2Proof.Machine

/-! SUPPORT. The mux (R28 to R40): routing, the rejected and the forwarded transactions, what a read can decode to; and the
run of a script of operations (R43, R60). -/

namespace Sys2Proof.Machine

open Claims

/-! ### The region table -/

/-- The regions of the table: RAM, each timer's, the UART's, and each present ROM slot's (R28). -/
theorem mem_regionTable_iff {c : Config} {r : Region} : r ∈ regionTable c ↔
    r = ramRegion c ∨ (∃ n < c.numTimers, timerRegion c n = r) ∨ r = uartRegion c
      ∨ ∃ k, romPresent c k = true ∧ romRegion c k = r := by
  have hslot : ∀ k : Slot, k ∈ [Slot.rom0, Slot.rom1] := by intro k; cases k <;> decide
  simp only [regionTable, timerRegions, romRegions, List.mem_cons, List.mem_append, List.mem_map, List.mem_range,
    List.mem_filter, hslot, true_and]

theorem Region.apart_comm {r q : Region} (h : r.apart q = true) : q.apart r = true := by
  rwa [Region.apart, min_comm, max_comm]

/-- In a legal configuration a region that holds an address is the only one that does (R4, R28). -/
theorem region_unique {c : Config} (hc : c.wf = true) {r q : Region} {a : Nat} (hr : r ∈ regionTable c)
    (hq : q ∈ regionTable c) (hra : r.holds a = true) (hqa : q.holds a = true) : r = q := by
  obtain ⟨-, -, -, -, -, -, -, -, -, hapart, -⟩ := (config_wf_iff c).mp hc
  have hsymm : Std.Symm fun r q : Region => r.apart q = true := ⟨fun _ _ => Region.apart_comm⟩
  by_contra hne
  have hrq : r.apart q = true := hapart.forall hr hq hne
  exact Bool.false_ne_true ((Region.apart_not_both hrq hra).symm.trans hqa)

/-- A region whose target is the answer holds the address (R29). -/
theorem holds_of_route_eq_target {c : Config} {a : Addr} {r : Region} (hr : r ∈ regionTable c)
    (h : route c a = r.target) : r.holds a.toNat = true := by
  have hspec := route_spec c a
  rw [h] at hspec
  rcases mem_regionTable_iff.mp hr with rfl | ⟨n, -, rfl⟩ | rfl | ⟨k, -, rfl⟩
  · exact hspec
  · exact hspec.2
  · exact hspec
  · exact hspec.2

/-- An answer other than UNMAPPED is the target of a region of the table (R29). -/
theorem exists_region_of_mapped {c : Config} {a : Addr} (h : route c a ≠ .unmapped) :
    ∃ r ∈ regionTable c, route c a = r.target := by
  have hspec := route_spec c a
  cases hroute : route c a with
  | unmapped => exact absurd hroute h
  | ram => exact ⟨ramRegion c, mem_regionTable_iff.mpr (.inl rfl), rfl⟩
  | uart => exact ⟨uartRegion c, mem_regionTable_iff.mpr (.inr (.inr (.inl rfl))), rfl⟩
  | timer n =>
    rw [hroute] at hspec
    exact ⟨timerRegion c n, mem_regionTable_iff.mpr (.inr (.inl ⟨n, hspec.1, rfl⟩)), rfl⟩
  | rom k =>
    rw [hroute] at hspec
    exact ⟨romRegion c k, mem_regionTable_iff.mpr (.inr (.inr (.inr ⟨k, hspec.1, rfl⟩))), rfl⟩

theorem not_holds_of_unmapped {c : Config} {a : Addr} (h : route c a = .unmapped) {r : Region}
    (hr : r ∈ regionTable c) : ¬ r.holds a.toNat = true := by
  have hspec := route_spec c a
  rw [h] at hspec
  obtain ⟨hram, htimer, huart, hrom⟩ := hspec
  rw [Bool.not_eq_true]
  rcases mem_regionTable_iff.mp hr with rfl | ⟨n, hn, rfl⟩ | rfl | ⟨k, hk, rfl⟩
  · exact hram
  · exact htimer n hn
  · exact huart
  · exact hrom k hk

/-- Settles O24: the answer's region holds the address, and by R4 no other region does, so the order of R29's tests does
not matter. -/
theorem routingFollowsRegionTable : Obligations.RoutingFollowsRegionTable := by
  intro c a hc
  refine ⟨fun r hr hlo hhi => ?_, ⟨fun h r hr hra => ?_, fun h => ?_⟩,
    fun r hr h => (Region.holds_iff r _).mp (holds_of_route_eq_target hr h)⟩
  · have hra : r.holds a.toNat = true := (Region.holds_iff r _).mpr ⟨hlo, hhi⟩
    have hmapped : route c a ≠ .unmapped := fun h => not_holds_of_unmapped h hr hra
    obtain ⟨q, hq, htarget⟩ := exists_region_of_mapped hmapped
    rwa [region_unique hc hr hq hra (holds_of_route_eq_target hq htarget)]
  · exact not_holds_of_unmapped h hr ((Region.holds_iff r _).mpr hra)
  · by_contra hmapped
    obtain ⟨q, hq, htarget⟩ := exists_region_of_mapped hmapped
    exact h q hq ((Region.holds_iff q _).mp (holds_of_route_eq_target hq htarget))

/-! ### Decode of a bus transaction -/

/-- The key of a transaction decodes by its address and size (R47, R49, R51). -/
theorem decodeIn_accessKey (s : State) (x : Access) :
    decodeIn s ⟨mkKey 0#4 0#1 (szOfSize x.size) (wOfXfer x.xfer) x.addr, dataOfXfer x.xfer⟩ = decodeAccess s.cfg x := by
  simp [decodeIn, decode]

theorem decodeAccess_unmapped {c : Config} {x : Access} (h : route c x.addr = .unmapped) :
    decodeAccess c x = .busUnmapped x := by
  simp [decodeAccess, h]

theorem decodeAccess_ram {c : Config} {x : Access} (h : route c x.addr = .ram) : decodeAccess c x = .ramAccess x := by
  simp [decodeAccess, h]

theorem decodeAccess_rom {c : Config} {x : Access} {k : Slot} (h : route c x.addr = .rom k) :
    decodeAccess c x = .romAccess k x := by
  simp [decodeAccess, h]

/-- A transaction to a device meets the device's checks, whatever register it is for (R51). -/
theorem decodeAccess_device {c : Config} {x : Access} (h : (route c x.addr).isDevice = true) :
    ∃ registers, decodeAccess c x = decodeDevice c x registers := by
  cases hroute : route c x.addr with
  | timer n => exact ⟨decodeTimer c n (x.addr.toNat - (timerRegion c n).lo) x.xfer, by simp [decodeAccess, hroute]⟩
  | uart => exact ⟨decodeUart c (x.addr.toNat - (uartRegion c).lo) x.xfer, by simp [decodeAccess, hroute]⟩
  | ram | rom | unmapped => simp [hroute, Target.isDevice] at h

/-- The size is checked first (R38). -/
theorem decodeAccess_badSize {c : Config} {x : Access} (h : (route c x.addr).isDevice = true)
    (hsize : x.size ≠ c.accessSize) : decodeAccess c x = .busBadSize x := by
  obtain ⟨registers, hd⟩ := decodeAccess_device h
  rw [hd, decodeDevice, if_pos hsize]

/-- The alignment is checked on the distance from the window's base (R39). -/
theorem decodeAccess_misaligned {c : Config} {x : Access} (h : (route c x.addr).isDevice = true)
    (hsize : x.size = c.accessSize) (hoff : (x.addr.toNat - regionBase c (route c x.addr)) % 4 ≠ 0) :
    decodeAccess c x = .busMisaligned x := by
  obtain ⟨registers, hd⟩ := decodeAccess_device h
  simp [hd, decodeDevice, hsize, alignedAccess, hoff]

/-- RAM is tested first, so no other region hides it (R29). -/
theorem route_eq_ram {c : Config} {a : Addr} (h : a.toNat < c.ramSize) : route c a = .ram := by
  simp [route, Region.holds, ramRegion, h]

/-! ### Rejected and forwarded transactions -/

/-- `raise BusError` ends a transaction as R92 has it, a read and a write alike but for the data. -/
theorem busError_rejectedAs (kind : RejectKind) (x : Access) (s : State) :
    RejectedAs kind x s (s.busError kind x) := by
  obtain ⟨a, z, _ | d⟩ := x
  · exact ⟨rfl, rfl, rfl, rfl, fun _ => rfl, fun h => absurd rfl h⟩
  · exact ⟨rfl, rfl, rfl, rfl, fun h => Xfer.noConfusion h, fun _ => rfl⟩

/-- Settles O25. -/
theorem unmappedAccessIsRejected : Obligations.UnmappedAccessIsRejected := by
  intro s x
  refine ⟨⟨_, rfl, busError_rejectedAs _ x s⟩, fun h => ?_⟩
  rw [decodeIn_accessKey, decodeAccess_unmapped h]

/-- Settles O26. -/
theorem wrongSizeIsRejected : Obligations.WrongSizeIsRejected := by
  intro s x
  refine ⟨⟨_, rfl, busError_rejectedAs _ x s⟩, fun h hsize => ?_⟩
  rw [decodeIn_accessKey, decodeAccess_badSize h hsize]

/-- Settles O27: the base of the routed window is the timer's or the UART's. -/
theorem misalignedIsRejected : Obligations.MisalignedIsRejected := by
  intro s x
  refine ⟨⟨_, rfl, busError_rejectedAs _ x s⟩, fun n _ hsize h hoff => ?_, fun _ hsize h hoff => ?_⟩
  all_goals
    rw [decodeIn_accessKey]
    refine decodeAccess_misaligned (by rw [h]; rfl) hsize ?_
    rw [h]
    exact hoff

/-- The mux hands on the transaction as it is, and changes nothing but its own record, the index of free values and the
response; a write's response carries no data (R31, R50). -/
theorem forward_effect (m : MemTarget) (x : Access) (s : State) :
    (s.forward m x).fwd = s.fwd ++ [⟨m, x⟩]
    ∧ (x.xfer ≠ .read → (s.forward m x).port.data = s.port.data)
    ∧ (s.forward m x).port.answer = s.port.answer
    ∧ s.forward m x =
      { s with fwd := (s.forward m x).fwd, draw := (s.forward m x).draw, port := (s.forward m x).port } := by
  obtain ⟨a, z, _ | d⟩ := x
  · exact ⟨rfl, fun h => absurd rfl h, rfl, rfl⟩
  · exact ⟨rfl, fun _ => rfl, rfl, rfl⟩

/-- Settles O28. -/
theorem memoryAccessIsForwarded : Obligations.MemoryAccessIsForwarded := by
  intro s x k
  refine ⟨⟨_, rfl, forward_effect .ram x s⟩, ⟨_, rfl, forward_effect (.rom k) x s⟩, fun h => ?_, fun h => ?_⟩
  · rw [decodeIn_accessKey, decodeAccess_ram (route_eq_ram h)]
  · rw [decodeIn_accessKey, decodeAccess_rom h]

/-! ### Reads -/

/-- The rows a read access can decode to: the register reads (R52, R53), the mux's rows and the refusal of RSV = 1 (R51). -/
def isReadRow : Instr → Bool
  | .timerRdValue _ | .timerRdControl _ | .timerRdRsvd _ _ | .uartRdTx | .uartRdRx | .uartRdSt | .uartRdRsvd _
  | .busUnmapped _ | .ramAccess _ | .romAccess _ _ | .busBadSize _ | .busMisaligned _ | .refusedRsv _ => true
  | .timerWrControl _ _ | .timerWrValue _ _ | .timerWrRsvd _ _ _ | .uartWrTx _ | .uartWrRx _ | .uartWrSt _
  | .uartWrRsvd _ _ | .timerTick _ | .uartReceive _ | .uartReceiveViolation _ | .uartCanReceive | .reset
  | .uartEpEvent _ | .refusedKind67 _ | .refusedKind815 _ | .refusedEventArg _ => false

theorem isReadRow_decodeTimer (c : Config) (n off : Nat) : isReadRow (decodeTimer c n off .read) = true := by
  unfold decodeTimer
  split_ifs <;> rfl

theorem isReadRow_decodeUart (c : Config) (off : Nat) : isReadRow (decodeUart c off .read) = true := by
  unfold decodeUart
  split_ifs <;> rfl

/-- A device's checks answer the register row or a rejection (R51). -/
theorem isReadRow_decodeDevice (c : Config) (x : Access) {registers : Instr} (h : isReadRow registers = true) :
    isReadRow (decodeDevice c x registers) = true := by
  unfold decodeDevice
  split_ifs
  exacts [rfl, h, rfl]

theorem isReadRow_decodeAccess (c : Config) (a : Addr) (z : Size) :
    isReadRow (decodeAccess c ⟨a, z, .read⟩) = true := by
  unfold decodeAccess
  split
  · rfl
  · rfl
  · rfl
  · exact isReadRow_decodeDevice c _ (isReadRow_decodeTimer c _ _)
  · exact isReadRow_decodeDevice c _ (isReadRow_decodeUart c _)

/-- An ACCESS key with W = 0 decodes to a read's row (R47, R51). -/
theorem isReadRow_decodeIn (s : State) {k : Key} (d : Word) (hkind : keyKind k = 0#4) (hw : keyW k = 0#1) :
    isReadRow (decodeIn s ⟨k, d⟩) = true := by
  by_cases hrsv : keyRsv k = 1#1
  · simp [decodeIn, decode, hrsv, isReadRow]
  · have hdecode : decodeIn s ⟨k, d⟩ = decodeAccess s.cfg ⟨keyA k, sizeOfSz (keySz k), .read⟩ := by
      simp [decodeIn, decode, hrsv, hkind, hw, xferOfW]
    rw [hdecode]
    exact isReadRow_decodeAccess _ _ _

/-- Of the effects on the devices, the consumed byte's alone is a read's (R40). -/
theorem DeviceEffect.sameDevices_of_read {s t : State} {i : Instr} (h : DeviceEffect s i t) (hread : isReadRow i = true)
    (hrx : i ≠ .uartRdRx) : SameDevices s t := by
  cases h with
  | untouched same => exact same
  | consumed => exact absurd rfl hrx
  | started | ticked | sent | cleared => cases hread
  | accepted delivery => obtain rfl | rfl := delivery <;> cases hread

/-- A delivery is no read. -/
theorem isDelivery_of_isReadRow {i : Instr} (h : isReadRow i = true) : isDelivery i = false := by
  cases i with
  | uartReceive | uartReceiveViolation => cases h
  | _ => rfl

theorem RecordEffect.perr_of_read {s t : State} {i : Instr} (h : RecordEffect s i t) (hread : isReadRow i = true) :
    t.perr = s.perr := by
  cases h with
  | kept _ _ perr | invalid _ _ perr | rejected _ _ perr => exact perr
  | violated delivery =>
    rw [isDelivery_of_isReadRow hread] at delivery
    cases delivery

/-- Settles O31: no effect on the devices but the consumed byte's, and none on `perr`, is a read's. -/
theorem onlyRxReadHasSideEffect : Obligations.OnlyRxReadHasSideEffect := by
  intro s t k d hkind hw hrx h
  have hread : isReadRow (decodeIn s ⟨k, d⟩) = true := isReadRow_decodeIn s d hkind hw
  have same : SameDevices s t := (exec_deviceEffect h).sameDevices_of_read hread hrx
  exact ⟨same.timers, same.uart, same.ep, (exec_recordEffect h).perr_of_read hread, same.cfg⟩

/-! ### The step at an operation and at a fetch -/

theorem step_of_currentLine {s : State} {l : Line} (h : currentLine s = some l) : step s = runLine l s := by
  simp [step, stepLine, h]

/-- Settles O44. -/
theorem stepRunsDecodedOperation : Obligations.StepRunsDecodedOperation :=
  fun _ _ h => step_of_currentLine h

/-- No instruction is fetched from a device window (R46). -/
theorem fetch_device {a : Addr} {s : State} (z : Size) (h : (route s.cfg a).isDevice = true) :
    fetch a z s = .refused (.fetchFromDevice a) := by
  cases hroute : route s.cfg a with
  | timer | uart => simp [fetch, hroute]
  | ram | rom | unmapped => simp [hroute, Target.isDevice] at h

/-- Settles O34. -/
theorem fetchFromDeviceIsRefused : Obligations.FetchFromDeviceIsRefused :=
  fun _ _ z hline hdevice => (step_of_currentLine hline).trans (fetch_device z hdevice)

/-! ### The run of a script of operations -/

/-- The state with another script and position. -/
def State.withSeq (s : State) (q : Sequencer) : State := { s with seq := q }

theorem State.busError_withSeq (s : State) (q : Sequencer) (kind : RejectKind) (x : Access) :
    (s.withSeq q).busError kind x = (s.busError kind x).withSeq q := by
  rcases x with ⟨_, _, _ | _⟩ <;> rfl

theorem State.forward_withSeq (s : State) (q : Sequencer) (m : MemTarget) (x : Access) :
    (s.withSeq q).forward m x = (s.forward m x).withSeq q := by
  rcases x with ⟨_, _, _ | _⟩ <;> rfl

theorem deliver_withSeq {b : Byte} {s t : State} (h : deliver b s = .next t) (q : Sequencer) :
    deliver b (s.withSeq q) = .next (t.withSeq q) := by
  obtain ⟨hc, ⟨hr, rfl⟩ | ⟨hr, rfl⟩⟩ := deliver_next h
  · exact (if_pos hc).trans (if_pos hr)
  · exact (if_pos hc).trans (if_neg (ne_true_of_eq_false hr))

/-- No operation reads or writes the script or its position: it does the same under any (R60). -/
theorem exec_withSeq {i : Instr} {s t : State} (h : exec i s = .next t) (q : Sequencer) :
    exec i (s.withSeq q) = .next (t.withSeq q) := by
  cases i with
  | timerWrControl | timerTick | timerRdValue =>
    obtain ⟨u, hu, hk⟩ := withTimer_next h
    obtain rfl := Host.Outcome.next.inj hk
    exact withTimer_some (s := s.withSeq q) _ hu
  | busUnmapped | busBadSize | busMisaligned =>
    obtain rfl := Host.Outcome.next.inj h
    exact congrArg _ (State.busError_withSeq _ _ _ _)
  | ramAccess | romAccess =>
    obtain rfl := Host.Outcome.next.inj h
    exact congrArg _ (State.forward_withSeq _ _ _ _)
  | uartReceive | uartReceiveViolation => exact deliver_withSeq h q
  | timerRdControl | timerRdRsvd | timerWrValue | timerWrRsvd | uartRdTx | uartRdRx | uartRdSt | uartRdRsvd | uartWrTx
  | uartWrRx | uartWrSt | uartWrRsvd | uartCanReceive | uartEpEvent | reset =>
    obtain rfl := Host.Outcome.next.inj h
    rfl
  | refusedRsv | refusedKind67 | refusedKind815 | refusedEventArg => cases h

/-- A step at an operation performs it and moves to the next line. -/
theorem step_withSeq_of_op {o : Op} {s t : State} (h : perform o s = .next t) {script : List Line} {n : Nat}
    (hline : script[n]? = some (.op o)) : step (s.withSeq ⟨script, n, 0⟩) = .next (t.withSeq ⟨script, n + 1, 0⟩) :=
  (step_of_currentLine (s := s.withSeq ⟨script, n, 0⟩) hline).trans (exec_withSeq h ⟨script, n + 1, 0⟩)

theorem performAll_cons_next {o : Op} {os : List Op} {s t : State} (h : performAll (o :: os) s = .next t) :
    ∃ r, perform o s = .next r ∧ performAll os r = .next t := by
  rw [performAll] at h
  split at h
  · exact ⟨_, ‹_›, h⟩
  · cases h
  · cases h

theorem run_succ_of_step {s t : State} (h : step s = .next t) (k : Nat) :
    Host.Core.run Sys2Proof.core (k + 1) s = Host.Core.run Sys2Proof.core k t := by
  have hstep : Sys2Proof.core.step s = .next t := h
  simp only [Host.Core.run, hstep]

/-- From any line on, a script whose remaining lines are operations performs them. -/
theorem run_withSeq {os : List Op} {s t : State} (h : performAll os s = .next t) {script : List Line} {n : Nat}
    (hrest : script.drop n = os.map .op) :
    Host.Core.run Sys2Proof.core os.length (s.withSeq ⟨script, n, 0⟩) = .next (t.withSeq ⟨script, n + os.length, 0⟩) := by
  induction os generalizing s n with
  | nil => obtain rfl := Host.Outcome.next.inj h; rfl
  | cons o os ih =>
    obtain ⟨r, hr, hrs⟩ := performAll_cons_next h
    have hline : script[n]? = some (.op o) := by rw [← List.head?_drop, hrest]; rfl
    have hnext : script.drop (n + 1) = os.map .op := by rw [← List.tail_drop, hrest]; rfl
    calc Host.Core.run Sys2Proof.core (os.length + 1) (s.withSeq ⟨script, n, 0⟩)
        = Host.Core.run Sys2Proof.core os.length (r.withSeq ⟨script, n + 1, 0⟩) :=
          run_succ_of_step (step_withSeq_of_op hr hline) _
      _ = .next (t.withSeq ⟨script, n + 1 + os.length, 0⟩) := ih hrs hnext
      _ = .next (t.withSeq ⟨script, n + (o :: os).length, 0⟩) := by
          rw [List.length_cons, Nat.add_right_comm, Nat.add_assoc]

/-- Settles O48: the run from line 0, where all of the script is left. -/
theorem scriptPerformsItsOperations : Obligations.ScriptPerformsItsOperations := by
  intro s t os h
  have hrun := run_withSeq h (script := os.map .op) (n := 0) rfl
  rwa [Nat.zero_add] at hrun

end Sys2Proof.Machine

/-! SUPPORT. The decoder and the encoder: the rows a key can decode to, each with the conditions the opcode table gives it
(R47 to R57); the steps of POLL and EXPECT; the expansion of TICKS (R61). -/

namespace Sys2Proof.Machine

open Claims

/-! ### The rows of the register decode -/

/-- R52's table: the row an accepted access at offset `off` of timer `n` is, and what makes it that row. -/
inductive TimerRow (c : Config) (n off : Nat) : Xfer → Instr → Prop
  | rdRsvd (rsvd : timerRsvd c off = true) : TimerRow c n off .read (.timerRdRsvd n off)
  | wrRsvd {d : Word} (rsvd : timerRsvd c off = true) : TimerRow c n off (.write d) (.timerWrRsvd n off d)
  | rdControl (named : inRegFile c (timerRegCount c) off = true) (reg : off = c.timerControlOff) :
    TimerRow c n off .read (.timerRdControl n)
  | wrControl {d : Word} (named : inRegFile c (timerRegCount c) off = true) (reg : off = c.timerControlOff) :
    TimerRow c n off (.write d) (.timerWrControl n d)
  | rdValue (named : inRegFile c (timerRegCount c) off = true) (reg : off = c.timerValueOff) :
    TimerRow c n off .read (.timerRdValue n)
  | wrValue {d : Word} (named : inRegFile c (timerRegCount c) off = true) (reg : off = c.timerValueOff) :
    TimerRow c n off (.write d) (.timerWrValue n d)

/-- R53's table: the row an accepted access at offset `off` of the UART is, and what makes it that row. -/
inductive UartRow (c : Config) (off : Nat) : Xfer → Instr → Prop
  | rdRsvd (rsvd : uartRsvd c off = true) : UartRow c off .read (.uartRdRsvd off)
  | wrRsvd {d : Word} (rsvd : uartRsvd c off = true) : UartRow c off (.write d) (.uartWrRsvd off d)
  | rdTx (named : inRegFile c (uartRegCount c) off = true) (reg : off = c.uartTxOff) : UartRow c off .read .uartRdTx
  | wrTx {d : Word} (named : inRegFile c (uartRegCount c) off = true) (reg : off = c.uartTxOff) :
    UartRow c off (.write d) (.uartWrTx d)
  | rdRx (named : inRegFile c (uartRegCount c) off = true) (reg : off = c.uartRxOff) : UartRow c off .read .uartRdRx
  | wrRx {d : Word} (named : inRegFile c (uartRegCount c) off = true) (reg : off = c.uartRxOff) :
    UartRow c off (.write d) (.uartWrRx d)
  | rdSt (named : inRegFile c (uartRegCount c) off = true) (reg : off = c.uartStOff) : UartRow c off .read .uartRdSt
  | wrSt {d : Word} (named : inRegFile c (uartRegCount c) off = true) (reg : off = c.uartStOff) :
    UartRow c off (.write d) (.uartWrSt d)

theorem timerRsvd_eq_false_iff {c : Config} {off : Nat} : timerRsvd c off = false ↔
    inRegFile c (timerRegCount c) off = true ∧ (off = c.timerControlOff ∨ off = c.timerValueOff) := by
  simp only [timerRsvd, Bool.or_eq_false_iff, Bool.not_eq_false', Bool.and_eq_false_iff, decide_eq_false_iff_not,
    not_not]

theorem uartRsvd_eq_false_iff {c : Config} {off : Nat} : uartRsvd c off = false ↔
    inRegFile c (uartRegCount c) off = true ∧ (off = c.uartTxOff ∨ off = c.uartRxOff ∨ off = c.uartStOff) := by
  simp only [uartRsvd, Bool.or_eq_false_iff, Bool.not_eq_false', Bool.and_eq_false_iff, decide_eq_false_iff_not,
    not_not, or_assoc]

/-- The register decode of a timer answers a row of its table (R52). -/
theorem timerRow_decodeTimer (c : Config) (n off : Nat) (x : Xfer) : TimerRow c n off x (decodeTimer c n off x) := by
  have hreg (h : ¬ timerRsvd c off = true) := timerRsvd_eq_false_iff.mp (eq_false_of_ne_true h)
  unfold decodeTimer
  cases x with
  | read =>
    dsimp only
    split_ifs with hrsvd hvalue
    · exact .rdRsvd hrsvd
    · exact .rdValue (hreg hrsvd).1 hvalue
    · exact .rdControl (hreg hrsvd).1 ((hreg hrsvd).2.resolve_right hvalue)
  | write d =>
    dsimp only
    split_ifs with hrsvd hcontrol
    · exact .wrRsvd hrsvd
    · exact .wrControl (hreg hrsvd).1 hcontrol
    · exact .wrValue (hreg hrsvd).1 ((hreg hrsvd).2.resolve_left hcontrol)

/-- The register decode of the UART answers a row of its table (R53). -/
theorem uartRow_decodeUart (c : Config) (off : Nat) (x : Xfer) : UartRow c off x (decodeUart c off x) := by
  have hreg (h : ¬ uartRsvd c off = true) := uartRsvd_eq_false_iff.mp (eq_false_of_ne_true h)
  unfold decodeUart
  cases x with
  | read =>
    dsimp only
    split_ifs with hrsvd htx hrx
    · exact .rdRsvd hrsvd
    · exact .rdTx (hreg hrsvd).1 htx
    · exact .rdRx (hreg hrsvd).1 hrx
    · exact .rdSt (hreg hrsvd).1 (((hreg hrsvd).2.resolve_left htx).resolve_left hrx)
  | write d =>
    dsimp only
    split_ifs with hrsvd htx hrx
    · exact .wrRsvd hrsvd
    · exact .wrTx (hreg hrsvd).1 htx
    · exact .wrRx (hreg hrsvd).1 hrx
    · exact .wrSt (hreg hrsvd).1 (((hreg hrsvd).2.resolve_left htx).resolve_left hrx)

/-- The register names of a legal configuration are different offsets (R4). -/
theorem namedOffsets_ne {c : Config} (hc : c.wf = true) : c.timerControlOff ≠ c.timerValueOff
    ∧ c.uartTxOff ≠ c.uartRxOff ∧ c.uartTxOff ≠ c.uartStOff ∧ c.uartRxOff ≠ c.uartStOff := by
  obtain ⟨-, htimer, -, -, huart, -⟩ := (config_wf_iff c).mp hc
  exact ⟨htimer, huart⟩

section TimerRow
variable {c : Config} {n off : Nat} {x : Xfer} {i : Instr}

/-- In a legal configuration an access is one row of R52's table only. -/
theorem TimerRow.decode_eq (hc : c.wf = true) (row : TimerRow c n off x i) : decodeTimer c n off x = i := by
  obtain ⟨hne, -⟩ := namedOffsets_ne hc
  cases row with
  | rdRsvd rsvd | wrRsvd rsvd => simp [decodeTimer, rsvd]
  | rdControl named reg | wrControl named reg =>
    subst reg
    simp [decodeTimer, timerRsvd_eq_false_iff.mpr ⟨named, .inl rfl⟩, hne]
  | rdValue named reg | wrValue named reg =>
    subst reg
    simp [decodeTimer, timerRsvd_eq_false_iff.mpr ⟨named, .inr rfl⟩, hne.symm]

theorem TimerRow.encode_eq (row : TimerRow c n off x i) : encode c i = encodeReg c (timerRegion c n) off x := by
  cases row with
  | rdRsvd | wrRsvd => rfl
  | rdControl _ reg | wrControl _ reg | rdValue _ reg | wrValue _ reg => rw [reg]; rfl

theorem TimerRow.wf (hoff : timerOffOk c n off = true) (row : TimerRow c n off x i) : i.wf c = true := by
  cases row with
  | rdRsvd rsvd | wrRsvd rsvd => simp [Instr.wf, hoff, rsvd]
  | rdControl named reg | wrControl named reg | rdValue named reg | wrValue named reg =>
    simp [Instr.wf, timerNamed, ← reg, hoff, named]

theorem TimerRow.fitsState (row : TimerRow c n off x i) (rx : Bool) : i.fitsState rx = true := by
  cases row <;> rfl

end TimerRow

section UartRow
variable {c : Config} {off : Nat} {x : Xfer} {i : Instr}

/-- In a legal configuration an access is one row of R53's table only. -/
theorem UartRow.decode_eq (hc : c.wf = true) (row : UartRow c off x i) : decodeUart c off x = i := by
  obtain ⟨-, htxrx, htxst, hrxst⟩ := namedOffsets_ne hc
  cases row with
  | rdRsvd rsvd | wrRsvd rsvd => simp [decodeUart, rsvd]
  | rdTx named reg | wrTx named reg =>
    subst reg
    simp [decodeUart, uartRsvd_eq_false_iff.mpr ⟨named, .inl rfl⟩]
  | rdRx named reg | wrRx named reg =>
    subst reg
    simp [decodeUart, uartRsvd_eq_false_iff.mpr ⟨named, .inr (.inl rfl)⟩, htxrx.symm]
  | rdSt named reg | wrSt named reg =>
    subst reg
    simp [decodeUart, uartRsvd_eq_false_iff.mpr ⟨named, .inr (.inr rfl)⟩, htxst.symm, hrxst.symm]

theorem UartRow.encode_eq (row : UartRow c off x i) : encode c i = encodeReg c (uartRegion c) off x := by
  cases row with
  | rdRsvd | wrRsvd => rfl
  | rdTx _ reg | wrTx _ reg | rdRx _ reg | wrRx _ reg | rdSt _ reg | wrSt _ reg => rw [reg]; rfl

theorem UartRow.wf (hoff : uartOffOk c off = true) (row : UartRow c off x i) : i.wf c = true := by
  cases row with
  | rdRsvd rsvd | wrRsvd rsvd => simp [Instr.wf, hoff, rsvd]
  | rdTx named reg | wrTx named reg | rdRx named reg | wrRx named reg | rdSt named reg | wrSt named reg =>
    simp [Instr.wf, uartNamed, ← reg, hoff, named]

theorem UartRow.fitsState (row : UartRow c off x i) (rx : Bool) : i.fitsState rx = true := by
  cases row <;> rfl

end UartRow

/-! ### The rows of a bus transaction -/

/-- The row a bus transaction is, and what makes it that row, in R51's order: routing, size, alignment, register. -/
inductive AccessRow (c : Config) (x : Access) : Instr → Prop
  | unmapped (hit : route c x.addr = .unmapped) : AccessRow c x (.busUnmapped x)
  | ram (hit : route c x.addr = .ram) : AccessRow c x (.ramAccess x)
  | rom {k : Slot} (hit : route c x.addr = .rom k) : AccessRow c x (.romAccess k x)
  | badSize (hit : (route c x.addr).isDevice = true) (size : x.size ≠ c.accessSize) : AccessRow c x (.busBadSize x)
  | misaligned (hit : (route c x.addr).isDevice = true) (size : x.size = c.accessSize)
    (aligned : alignedAccess c x.addr = false) : AccessRow c x (.busMisaligned x)
  | timer {n : Nat} {i : Instr} (hit : route c x.addr = .timer n) (size : x.size = c.accessSize)
    (aligned : alignedAccess c x.addr = true)
    (row : TimerRow c n (x.addr.toNat - (timerRegion c n).lo) x.xfer i) : AccessRow c x i
  | uart {i : Instr} (hit : route c x.addr = .uart) (size : x.size = c.accessSize)
    (aligned : alignedAccess c x.addr = true)
    (row : UartRow c (x.addr.toNat - (uartRegion c).lo) x.xfer i) : AccessRow c x i

/-- What a device's checks answer: a rejection, or, when they pass, the register row (R38, R39). -/
theorem accessRow_decodeDevice {c : Config} {x : Access} {registers : Instr} (hit : (route c x.addr).isDevice = true)
    (hregs : x.size = c.accessSize → alignedAccess c x.addr = true → AccessRow c x registers) :
    AccessRow c x (decodeDevice c x registers) := by
  unfold decodeDevice
  split_ifs with hsize haligned
  · exact .badSize hit hsize
  · exact hregs (not_not.mp hsize) haligned
  · exact .misaligned hit (not_not.mp hsize) (eq_false_of_ne_true haligned)

/-- Decode of a bus transaction answers a row of the table (R51). -/
theorem accessRow_decodeAccess (c : Config) (x : Access) : AccessRow c x (decodeAccess c x) := by
  unfold decodeAccess
  split
  next hit => exact .unmapped hit
  next hit => exact .ram hit
  next k hit => exact .rom hit
  next n hit =>
    exact accessRow_decodeDevice (by rw [hit]; rfl) fun hsize haligned =>
      .timer hit hsize haligned (timerRow_decodeTimer _ _ _ _)
  next hit =>
    exact accessRow_decodeDevice (by rw [hit]; rfl) fun hsize haligned =>
      .uart hit hsize haligned (uartRow_decodeUart _ _ _)

section AccessRow
variable {c : Config} {x : Access} {i : Instr}

/-- In a legal configuration a bus transaction is one row only. -/
theorem AccessRow.decode_eq (hc : c.wf = true) (row : AccessRow c x i) : decodeAccess c x = i := by
  cases row with
  | unmapped hit => exact decodeAccess_unmapped hit
  | ram hit => exact decodeAccess_ram hit
  | rom hit => exact decodeAccess_rom hit
  | badSize hit size => exact decodeAccess_badSize hit size
  | misaligned hit size aligned => exact decodeAccess_misaligned hit size (of_decide_eq_false aligned)
  | timer hit size aligned row => simp [decodeAccess, hit, decodeDevice, size, aligned, row.decode_eq hc]
  | uart hit size aligned row => simp [decodeAccess, hit, decodeDevice, size, aligned, row.decode_eq hc]

/-- A register access is the transaction at its own offset of the region (R29). -/
theorem encodeReg_offset {r : Region} (hlo : r.lo ≤ x.addr.toNat) (hsize : x.size = c.accessSize) :
    encodeReg c r (x.addr.toNat - r.lo) x.xfer = encodeAccess x := by
  rw [encodeReg, Nat.add_sub_cancel' hlo, BitVec.ofNat_toNat, BitVec.setWidth_eq, ← hsize]

/-- The timer an address is routed to exists, and its window holds the address (R28, R29). -/
theorem timer_bounds_of_route {a : Addr} {n : Nat} (hit : route c a = .timer n) :
    n < c.numTimers ∧ (timerRegion c n).lo ≤ a.toNat ∧ a.toNat < (timerRegion c n).hi := by
  have hspec := route_spec c a
  rw [hit] at hspec
  exact ⟨hspec.1, (Region.holds_iff _ _).mp hspec.2⟩

theorem uart_bounds_of_route {a : Addr} (hit : route c a = .uart) :
    (uartRegion c).lo ≤ a.toNat ∧ a.toNat < (uartRegion c).hi := by
  have hspec := route_spec c a
  rw [hit] at hspec
  exact (Region.holds_iff _ _).mp hspec

/-- No bit of a transaction is lost in its row. -/
theorem AccessRow.encode_eq (row : AccessRow c x i) : encode c i = encodeAccess x := by
  cases row with
  | unmapped | ram | rom | badSize | misaligned => rfl
  | timer hit size _ row =>
    obtain ⟨-, hlo, -⟩ := timer_bounds_of_route hit
    rw [row.encode_eq, encodeReg_offset hlo size]
  | uart hit size _ row =>
    obtain ⟨hlo, -⟩ := uart_bounds_of_route hit
    rw [row.encode_eq, encodeReg_offset hlo size]

/-- An aligned address routed to a timer is an offset of its window (R28, R39). -/
theorem timerOffOk_of_route (hc : c.wf = true) {a : Addr} {n : Nat} (hit : route c a = .timer n)
    (haligned : alignedAccess c a = true) : timerOffOk c n (a.toNat - (timerRegion c n).lo) = true := by
  obtain ⟨hn, hlo, hhi⟩ := timer_bounds_of_route hit
  have hmod : (a.toNat - (timerRegion c n).lo) % 4 = 0 := by simpa [alignedAccess, hit, regionBase] using haligned
  have hwin : a.toNat - (timerRegion c n).lo < c.timerWin := by simp only [timerRegion] at hlo hhi ⊢; omega
  simp only [timerOffOk, Bool.and_eq_true, decide_eq_true_eq, Nat.add_sub_cancel' hlo]
  exact ⟨⟨⟨hn, hwin⟩, hmod⟩, (addrExists_iff hc _).mpr a.isLt⟩

theorem uartOffOk_of_route (hc : c.wf = true) {a : Addr} (hit : route c a = .uart)
    (haligned : alignedAccess c a = true) : uartOffOk c (a.toNat - (uartRegion c).lo) = true := by
  obtain ⟨hlo, hhi⟩ := uart_bounds_of_route hit
  have hmod : (a.toNat - (uartRegion c).lo) % 4 = 0 := by simpa [alignedAccess, hit, regionBase] using haligned
  have hwin : a.toNat - (uartRegion c).lo < c.uartWin := by simp only [uartRegion] at hlo hhi ⊢; omega
  simp only [uartOffOk, Bool.and_eq_true, decide_eq_true_eq, Nat.add_sub_cancel' hlo]
  exact ⟨⟨hwin, hmod⟩, (addrExists_iff hc _).mpr a.isLt⟩

theorem AccessRow.wf (hc : c.wf = true) (row : AccessRow c x i) : i.wf c = true := by
  cases row with
  | unmapped hit | ram hit | rom hit => exact decide_eq_true hit
  | badSize hit size => simp [Instr.wf, hit, size]
  | misaligned hit size aligned => simp [Instr.wf, hit, size, aligned]
  | timer hit _ aligned row => exact row.wf (timerOffOk_of_route hc hit aligned)
  | uart hit _ aligned row => exact row.wf (uartOffOk_of_route hc hit aligned)

theorem AccessRow.fitsState (row : AccessRow c x i) (rx : Bool) : i.fitsState rx = true := by
  cases row with
  | unmapped | ram | rom | badSize | misaligned => rfl
  | timer _ _ _ row => exact row.fitsState rx
  | uart _ _ _ row => exact row.fitsState rx

/-- A register row is a row of an access of ACCESS_SIZE (R38). -/
theorem AccessRow.size_of_register (row : AccessRow c x i) (hreg : ofRegister i = true) : x.size = c.accessSize := by
  cases row with
  | unmapped | ram | rom | badSize | misaligned => cases hreg
  | timer _ size | uart _ size => exact size

end AccessRow

/-! ### Register accesses -/

/-- The transaction that reaches offset `off` of a device's region. -/
def regAccess (c : Config) (r : Region) (off : Nat) (x : Xfer) : Access := ⟨BitVec.ofNat 32 (r.lo + off), c.accessSize, x⟩

section RegAccess
variable {c : Config} {n off : Nat} {x : Xfer} {i : Instr}

/-- In a legal configuration an offset of a region, at an address that exists, is routed to the region's target (R28). -/
theorem route_regAccess (hc : c.wf = true) {r : Region} (hr : r ∈ regionTable c) (hhi : r.lo + off < r.hi)
    (hexists : addrExists c (r.lo + off) = true) (x : Xfer) :
    (regAccess c r off x).addr.toNat = r.lo + off ∧ route c (regAccess c r off x).addr = r.target := by
  have haddr : (regAccess c r off x).addr.toNat = r.lo + off :=
    (BitVec.toNat_ofNat _ _).trans (Nat.mod_eq_of_lt ((addrExists_iff hc _).mp hexists))
  obtain ⟨htarget, -⟩ := routingFollowsRegionTable c (regAccess c r off x).addr hc
  exact ⟨haddr, htarget r hr (haddr ▸ Nat.le_add_right _ _) (haddr ▸ hhi)⟩

/-- An aligned offset of an existing timer's window is that timer's row of the offset (R28, R39, R52). -/
theorem accessRow_timer (hc : c.wf = true) (hoff : timerOffOk c n off = true) (row : TimerRow c n off x i) :
    AccessRow c (regAccess c (timerRegion c n) off x) i := by
  simp only [timerOffOk, Bool.and_eq_true, decide_eq_true_eq] at hoff
  obtain ⟨⟨⟨hn, hwin⟩, hmod⟩, hexists⟩ := hoff
  have hr : timerRegion c n ∈ regionTable c := mem_regionTable_iff.mpr (.inr (.inl ⟨n, hn, rfl⟩))
  obtain ⟨haddr, hit⟩ := route_regAccess hc hr (Nat.add_lt_add_left hwin _) hexists x
  have hoffset : (regAccess c (timerRegion c n) off x).addr.toNat - (timerRegion c n).lo = off := by
    rw [haddr, Nat.add_sub_cancel_left]
  refine .timer hit rfl ?_ (by rwa [hoffset])
  rw [alignedAccess, hit]
  exact decide_eq_true ((congrArg (· % 4) hoffset).trans hmod)

/-- An aligned offset of the UART's window is the UART's row of the offset (R28, R39, R53). -/
theorem accessRow_uart (hc : c.wf = true) (hoff : uartOffOk c off = true) (row : UartRow c off x i) :
    AccessRow c (regAccess c (uartRegion c) off x) i := by
  simp only [uartOffOk, Bool.and_eq_true, decide_eq_true_eq] at hoff
  obtain ⟨⟨hwin, hmod⟩, hexists⟩ := hoff
  have hr : uartRegion c ∈ regionTable c := mem_regionTable_iff.mpr (.inr (.inr (.inl rfl)))
  obtain ⟨haddr, hit⟩ := route_regAccess hc hr (Nat.add_lt_add_left hwin _) hexists x
  have hoffset : (regAccess c (uartRegion c) off x).addr.toNat - (uartRegion c).lo = off := by
    rw [haddr, Nat.add_sub_cancel_left]
  refine .uart hit rfl ?_ (by rwa [hoffset])
  rw [alignedAccess, hit]
  exact decide_eq_true ((congrArg (· % 4) hoffset).trans hmod)

end RegAccess

/-! ### The rows of an event key -/

/-- R56's table: the keys of each event, and the event keys that are refused. -/
inductive EventRow (c : Config) (rx : Bool) : Key → Instr → Prop
  | tick {n : Nat} (inst : n < c.numTimers) (fits : n < 2 ^ 32) :
    EventRow c rx (encodeEvent 1#4 (BitVec.ofNat 32 n)).key (.timerTick n)
  | receive {b : Byte} (state : rx = false) : EventRow c rx (encodeEvent 2#4 (b.setWidth 32)).key (.uartReceive b)
  | violation {b : Byte} (state : rx = true) :
    EventRow c rx (encodeEvent 2#4 (b.setWidth 32)).key (.uartReceiveViolation b)
  | canReceive : EventRow c rx (encodeEvent 3#4 0#32).key .uartCanReceive
  | reset : EventRow c rx (encodeEvent 4#4 0#32).key .reset
  | epEvent {ev : EpEvent} : EventRow c rx (encodeEvent 5#4 (epEventBit ev)).key (.uartEpEvent ev)
  | refused {k : Key} (rsv : keyRsv k = 0#1) (kind : 1#4 ≤ keyKind k ∧ keyKind k ≤ 5#4)
    (arg : eventArgOk c k = false) : EventRow c rx k (.refusedEventArg k)

@[simp] theorem keyKind_encodeEvent (kind : BitVec 4) (a : Addr) : keyKind (encodeEvent kind a).key = kind :=
  keyKind_mkKey _ _ _ _ _

@[simp] theorem keyRsv_encodeEvent (kind : BitVec 4) (a : Addr) : keyRsv (encodeEvent kind a).key = 0#1 :=
  keyRsv_mkKey _ _ _ _ _

@[simp] theorem keyA_encodeEvent (kind : BitVec 4) (a : Addr) : keyA (encodeEvent kind a).key = a :=
  keyA_mkKey _ _ _ _ _

/-- The arguments of a key that is an event's own, R56: W and SZ are 0 there. -/
theorem eventArgOk_encodeEvent (c : Config) (kind : BitVec 4) (a : Addr) :
    eventArgOk c (encodeEvent kind a).key =
      if kind = 1#4 then decide (a.toNat < c.numTimers)
      else if kind = 2#4 then decide (a.extractLsb' 8 24 = 0#24)
      else if kind = 5#4 then decide (a.extractLsb' 1 31 = 0#31)
      else decide (a = 0#32) := by
  simp [eventArgOk, encodeEvent]

/-- An event key whose arguments are in range has W = 0 and SZ = 0, so it is the event's own key for its A (R56). -/
theorem eq_encodeEvent_of_eventArgOk {c : Config} {k : Key} (hrsv : keyRsv k = 0#1) (harg : eventArgOk c k = true) :
    k = (encodeEvent (keyKind k) (keyA k)).key := by
  simp only [eventArgOk, Bool.and_eq_true, decide_eq_true_eq] at harg
  obtain ⟨⟨hw, hsz⟩, -⟩ := harg
  calc k = mkKey (keyKind k) (keyRsv k) (keySz k) (keyW k) (keyA k) := (mkKey_fields k).symm
    _ = (encodeEvent (keyKind k) (keyA k)).key := by rw [hrsv, hw, hsz]; rfl

/-- A delivered byte is the low byte of the word it stands in, and there is nothing above it. -/
theorem extractLsb'_setWidth_byte (b : Byte) :
    (b.setWidth 32).extractLsb' 0 8 = b ∧ (b.setWidth 32).extractLsb' 8 24 = 0#24 := by
  revert b; decide

/-- A word whose upper 24 bits are 0 is its low byte. -/
theorem setWidth_extractLsb'_byte {a : Addr} (h : a.extractLsb' 8 24 = 0#24) : (a.extractLsb' 0 8).setWidth 32 = a := by
  have ha := congrArg BitVec.toNat h
  simp only [BitVec.extractLsb'_toNat, Nat.shiftRight_eq_div_pow, BitVec.toNat_ofNat] at ha
  apply BitVec.eq_of_toNat_eq
  simp only [BitVec.toNat_setWidth, BitVec.extractLsb'_toNat, Nat.shiftRight_zero]
  omega

/-- A word whose upper 31 bits are 0 is the bit of the endpoint event it stands for (R56). -/
theorem epEventBit_of_bit {a : Addr} (h : a.extractLsb' 1 31 = 0#31) :
    epEventBit (if a.extractLsb' 0 1 = 1#1 then .disconnect else .connect) = a := by
  have ha := congrArg BitVec.toNat h
  simp only [BitVec.extractLsb'_toNat, Nat.shiftRight_eq_div_pow, BitVec.toNat_ofNat] at ha
  have hbit : a.extractLsb' 0 1 = 1#1 ↔ a.toNat % 2 = 1 := by
    rw [← BitVec.toNat_inj, BitVec.extractLsb'_toNat, Nat.shiftRight_zero]
    rfl
  apply BitVec.eq_of_toNat_eq
  split_ifs with hone
  · have := hbit.mp hone
    simp only [epEventBit, BitVec.toNat_ofNat]
    omega
  · have := mt hbit.mpr hone
    simp only [epEventBit, BitVec.toNat_ofNat]
    omega

/-- The five event KINDs (R48). -/
theorem eventKind_cases {kind : BitVec 4} (h : 1#4 ≤ kind ∧ kind ≤ 5#4) :
    kind = 1#4 ∨ kind = 2#4 ∨ kind = 3#4 ∨ kind = 4#4 ∨ kind = 5#4 := by
  revert kind; decide

/-- An event's own key with its argument in range decodes to the event's row (R56). -/
theorem eventRow_encodeEvent {c : Config} {kind : BitVec 4} {a : Addr} (rx : Bool) (hkind : 1#4 ≤ kind ∧ kind ≤ 5#4)
    (harg : eventArgOk c (encodeEvent kind a).key = true) :
    EventRow c rx (encodeEvent kind a).key (decodeEvent c rx (encodeEvent kind a).key) := by
  rw [decodeEvent, if_pos harg]
  rw [eventArgOk_encodeEvent] at harg
  rcases eventKind_cases hkind with rfl | rfl | rfl | rfl | rfl
  · have hrow := EventRow.tick (rx := rx) (of_decide_eq_true harg) a.isLt
    simpa using hrow
  · have hbyte := setWidth_extractLsb'_byte (of_decide_eq_true harg)
    cases rx with
    | false =>
      have hrow := EventRow.receive (c := c) (b := a.extractLsb' 0 8) rfl
      rw [hbyte] at hrow
      simpa using hrow
    | true =>
      have hrow := EventRow.violation (c := c) (b := a.extractLsb' 0 8) rfl
      rw [hbyte] at hrow
      simpa using hrow
  · obtain rfl : a = 0#32 := of_decide_eq_true harg
    exact .canReceive
  · obtain rfl : a = 0#32 := of_decide_eq_true harg
    exact .reset
  · have hrow := EventRow.epEvent (c := c) (rx := rx) (ev := if a.extractLsb' 0 1 = 1#1 then .disconnect else .connect)
    rw [epEventBit_of_bit (of_decide_eq_true harg)] at hrow
    simpa using hrow

/-- Decode of an event key answers a row of R56's table. -/
theorem eventRow_decodeEvent {c : Config} {k : Key} (rx : Bool) (hrsv : keyRsv k = 0#1)
    (hkind : 1#4 ≤ keyKind k ∧ keyKind k ≤ 5#4) : EventRow c rx k (decodeEvent c rx k) := by
  cases harg : eventArgOk c k with
  | false => simpa [decodeEvent, harg] using EventRow.refused hrsv hkind harg
  | true =>
    have hkey := eq_encodeEvent_of_eventArgOk hrsv harg
    rw [hkey] at harg ⊢
    exact eventRow_encodeEvent rx hkind harg

section EventRow
variable {c : Config} {rx : Bool} {k : Key} {i : Instr}

/-- An event key has RSV = 0 and a KIND from 1 to 5 (R48). -/
theorem EventRow.kind (row : EventRow c rx k i) : keyRsv k = 0#1 ∧ 1#4 ≤ keyKind k ∧ keyKind k ≤ 5#4 := by
  cases row with
  | refused rsv kind => exact ⟨rsv, kind⟩
  | tick | receive | violation | canReceive | reset | epEvent => simp

/-- An event key is one row only, given RX_READY. -/
theorem EventRow.decode_eq (row : EventRow c rx k i) : decodeEvent c rx k = i := by
  cases row with
  | @tick n inst fits =>
    have hn : (BitVec.ofNat 32 n).toNat = n := (BitVec.toNat_ofNat _ _).trans (Nat.mod_eq_of_lt fits)
    simp [decodeEvent, eventArgOk_encodeEvent, -BitVec.toNat_ofNat, hn, inst]
  | @receive b state | @violation b state =>
    obtain ⟨hlow, hhigh⟩ := extractLsb'_setWidth_byte b
    simp [decodeEvent, eventArgOk_encodeEvent, state, hlow, hhigh]
  | canReceive | reset => simp [decodeEvent, eventArgOk_encodeEvent]
  | @epEvent ev => cases ev <;> simp [decodeEvent, eventArgOk_encodeEvent, epEventBit]
  | refused _ _ arg => simp [decodeEvent, arg]

/-- No bit of an event key is lost in its row. -/
theorem EventRow.encode_eq (row : EventRow c rx k i) : (encode c i).key = k := by
  cases row <;> rfl

theorem EventRow.wf (row : EventRow c rx k i) : i.wf c = true := by
  cases row with
  | tick inst fits => simpa [Instr.wf, inst] using fits
  | receive | violation | canReceive | reset | epEvent => rfl
  | refused rsv kind arg => simp [Instr.wf, rsv, kind, arg]

theorem EventRow.fitsState (row : EventRow c rx k i) : i.fitsState rx = true := by
  cases row with
  | receive state | violation state => simp [Instr.fitsState, state]
  | tick | canReceive | reset | epEvent | refused => rfl

end EventRow

/-! ### The rows of a key -/

/-- The transaction of an ACCESS key and its data word (R47, R49). -/
def accessOf (k : Key) (d : Word) : Access := ⟨keyA k, sizeOfSz (keySz k), xferOfW (keyW k) d⟩

/-- The key of a transaction spells that transaction (R47, R49). -/
theorem accessOf_encodeAccess (x : Access) : accessOf (encodeAccess x).key (encodeAccess x).data = x := by
  simp [accessOf, encodeAccess]

/-- The transaction of an ACCESS key keeps every bit of the key. -/
theorem encodeAccess_accessOf_key {k : Key} (hrsv : keyRsv k = 0#1) (hkind : keyKind k = 0#4) (d : Word) :
    (encodeAccess (accessOf k d)).key = k := by
  conv_rhs => rw [← mkKey_fields k, hrsv, hkind]
  simp [encodeAccess, accessOf]

/-- The transaction of a write keeps the data word. -/
theorem encodeAccess_accessOf_data {k : Key} (hw : keyW k = 1#1) (d : Word) :
    (encodeAccess (accessOf k d)).data = d := by
  simp [encodeAccess, accessOf, xferOfW, hw, dataOfXfer]

/-- The row a key is, with its data word and RX_READY, and what makes it that row (R48, R51, R57). -/
inductive KeyRow (c : Config) (rx : Bool) (k : Key) (d : Word) : Instr → Prop
  | reserved (rsv : keyRsv k = 1#1) : KeyRow c rx k d (.refusedRsv k)
  | kind815 (rsv : keyRsv k = 0#1) (kind : 8#4 ≤ keyKind k) : KeyRow c rx k d (.refusedKind815 k)
  | kind67 (rsv : keyRsv k = 0#1) (kind : keyKind k = 6#4 ∨ keyKind k = 7#4) : KeyRow c rx k d (.refusedKind67 k)
  | access {i : Instr} (rsv : keyRsv k = 0#1) (kind : keyKind k = 0#4) (row : AccessRow c (accessOf k d) i) :
    KeyRow c rx k d i
  | event {i : Instr} (row : EventRow c rx k i) : KeyRow c rx k d i

theorem keyRsv_eq_zero {k : Key} (h : ¬ keyRsv k = 1#1) : keyRsv k = 0#1 := by
  revert h; generalize keyRsv k = r; revert r; decide

/-- The KINDs the two tests on reserved KINDs leave (R48). -/
theorem kind_of_not_reserved {kind : BitVec 4} (h8 : ¬ 8#4 ≤ kind) :
    (6#4 ≤ kind → kind = 6#4 ∨ kind = 7#4) ∧ (¬ 6#4 ≤ kind → kind ≠ 0#4 → 1#4 ≤ kind ∧ kind ≤ 5#4) := by
  revert kind; decide

/-- Decode answers a row of the opcode table: the inversion of the decoder. -/
theorem keyRow_decode (c : Config) (rx : Bool) (k : Key) (d : Word) : KeyRow c rx k d (decode c rx k d) := by
  unfold decode
  split_ifs with hrsv h8 h6 h0
  · exact .reserved hrsv
  · exact .kind815 (keyRsv_eq_zero hrsv) h8
  · exact .kind67 (keyRsv_eq_zero hrsv) ((kind_of_not_reserved h8).1 h6)
  · exact .access (keyRsv_eq_zero hrsv) h0 (accessRow_decodeAccess c _)
  · exact .event (eventRow_decodeEvent rx (keyRsv_eq_zero hrsv) ((kind_of_not_reserved h8).2 h6 h0))

/-! One equation of the decoder for each class of keys (R51). -/

section DecodeKey
variable (c : Config) (rx : Bool) {k : Key} (d : Word)

theorem decode_reserved (rsv : keyRsv k = 1#1) : decode c rx k d = .refusedRsv k := by simp [decode, rsv]

theorem decode_kind815 (rsv : keyRsv k = 0#1) (kind : 8#4 ≤ keyKind k) : decode c rx k d = .refusedKind815 k := by
  simp [decode, rsv, kind]

theorem decode_kind67 (rsv : keyRsv k = 0#1) (kind : keyKind k = 6#4 ∨ keyKind k = 7#4) :
    decode c rx k d = .refusedKind67 k := by
  rcases kind with kind | kind <;> simp [decode, rsv, kind]

theorem decode_access (rsv : keyRsv k = 0#1) (kind : keyKind k = 0#4) :
    decode c rx k d = decodeAccess c (accessOf k d) := by
  simp [decode, rsv, kind, accessOf]

theorem decode_event (rsv : keyRsv k = 0#1) (kind : 1#4 ≤ keyKind k ∧ keyKind k ≤ 5#4) :
    decode c rx k d = decodeEvent c rx k := by
  rcases eventKind_cases kind with kind | kind | kind | kind | kind <;> simp [decode, rsv, kind]

end DecodeKey

section KeyRow
variable {c : Config} {rx : Bool} {k : Key} {d : Word} {i : Instr}

/-- In a legal configuration a key is one row only, given RX_READY. -/
theorem KeyRow.decode_eq (hc : c.wf = true) (row : KeyRow c rx k d i) : decode c rx k d = i := by
  cases row with
  | reserved rsv => exact decode_reserved c rx d rsv
  | kind815 rsv kind => exact decode_kind815 c rx d rsv kind
  | kind67 rsv kind => exact decode_kind67 c rx d rsv kind
  | access rsv kind row => exact (decode_access c rx d rsv kind).trans (row.decode_eq hc)
  | event row =>
    obtain ⟨rsv, kind⟩ := row.kind
    exact (decode_event c rx d rsv kind).trans row.decode_eq

theorem KeyRow.wf (hc : c.wf = true) (row : KeyRow c rx k d i) : i.wf c = true := by
  cases row with
  | reserved rsv => exact decide_eq_true rsv
  | kind815 rsv kind | kind67 rsv kind => simp [Instr.wf, rsv, kind]
  | access _ _ row => exact row.wf hc
  | event row => exact row.wf

theorem KeyRow.fitsState (row : KeyRow c rx k d i) : i.fitsState rx = true := by
  cases row with
  | reserved | kind815 | kind67 => rfl
  | access _ _ row => exact row.fitsState rx
  | event row => exact row.fitsState

/-- No bit of a key is lost in its row. -/
theorem KeyRow.encode_key_eq (row : KeyRow c rx k d i) : (encode c i).key = k := by
  cases row with
  | reserved | kind815 | kind67 => rfl
  | access rsv kind row => rw [row.encode_eq, encodeAccess_accessOf_key rsv kind]
  | event row => exact row.encode_eq

/-- An ACCESS key with RSV = 0 is a row of its transaction. -/
theorem KeyRow.accessRow (row : KeyRow c rx k d i) (hrsv : keyRsv k = 0#1) (hkind : keyKind k = 0#4) :
    AccessRow c (accessOf k d) i := by
  cases row with
  | access _ _ row => exact row
  | reserved rsv => simp [hrsv] at rsv
  | kind815 _ kind | kind67 _ kind => simp [hkind] at kind
  | event row =>
    obtain ⟨-, kind, -⟩ := row.kind
    simp [hkind] at kind

/-- A register row is a row of an access key (R51). -/
theorem KeyRow.accessRow_of_register (row : KeyRow c rx k d i) (hreg : ofRegister i = true) :
    keyRsv k = 0#1 ∧ keyKind k = 0#4 ∧ AccessRow c (accessOf k d) i := by
  cases row with
  | access rsv kind row => exact ⟨rsv, kind, row⟩
  | reserved | kind815 | kind67 => cases hreg
  | event row => cases row <;> cases hreg

/-- The key and data word of a transaction are a row of it. -/
theorem keyRow_encodeAccess (rx : Bool) {x : Access} (row : AccessRow c x i) :
    KeyRow c rx (encodeAccess x).key (encodeAccess x).data i :=
  .access (keyRsv_mkKey _ _ _ _ _) (keyKind_mkKey _ _ _ _ _) (by rwa [accessOf_encodeAccess])

end KeyRow

/-! ### Decoder and encoder against each other -/

/-- Settles O42: the conditions of the row a key decodes to are its constraint. -/
theorem decodedOperationIsWellFormed : Obligations.DecodedOperationIsWellFormed :=
  fun c rx k d hc => ⟨(keyRow_decode c rx k d).wf hc, (keyRow_decode c rx k d).fitsState⟩

/-- Settles O41: a row keeps the bits of its key, and that of an access key keeps the whole transaction. -/
theorem encodeInvertsDecode : Obligations.EncodeInvertsDecode := by
  intro c rx k d _
  have row : KeyRow c rx k d (decode c rx k d) := keyRow_decode c rx k d
  refine ⟨row.encode_key_eq, fun hkind hrsv hw => ?_⟩
  rw [(row.accessRow hrsv hkind).encode_eq, encodeAccess_accessOf_data hw]

section Encode
variable {c : Config} {i : Instr}

/-- The key and data word of a timer row at an offset of the timer's window are a row of it; `b` is the rest of the row's
constraint (R9, R52). -/
theorem keyRow_timer (hc : c.wf = true) (rx : Bool) {n off : Nat} {x : Xfer} {b : Bool}
    (h : (timerOffOk c n off && b) = true) (row : b = true → TimerRow c n off x i) :
    KeyRow c rx (encode c i).key (encode c i).data i := by
  obtain ⟨hoff, hb⟩ := Bool.and_eq_true_iff.mp h
  rw [(row hb).encode_eq]
  exact keyRow_encodeAccess rx (accessRow_timer hc hoff (row hb))

theorem keyRow_uart (hc : c.wf = true) (rx : Bool) {off : Nat} {x : Xfer} {b : Bool}
    (h : (uartOffOk c off && b) = true) (row : b = true → UartRow c off x i) :
    KeyRow c rx (encode c i).key (encode c i).data i := by
  obtain ⟨hoff, hb⟩ := Bool.and_eq_true_iff.mp h
  rw [(row hb).encode_eq]
  exact keyRow_encodeAccess rx (accessRow_uart hc hoff (row hb))

/-- The key and data word of a well-formed operation that fits the state are a row of it, operation by operation. -/
theorem keyRow_encode (hc : c.wf = true) {rx : Bool} (hwf : i.wf c = true) (hfits : i.fitsState rx = true) :
    KeyRow c rx (encode c i).key (encode c i).data i := by
  cases i with
  | timerWrControl n d => exact keyRow_timer hc rx hwf fun hnamed => .wrControl hnamed rfl
  | timerRdControl n => exact keyRow_timer hc rx hwf fun hnamed => .rdControl hnamed rfl
  | timerWrValue n d => exact keyRow_timer hc rx hwf fun hnamed => .wrValue hnamed rfl
  | timerRdValue n => exact keyRow_timer hc rx hwf fun hnamed => .rdValue hnamed rfl
  | timerRdRsvd n off => exact keyRow_timer hc rx hwf .rdRsvd
  | timerWrRsvd n off d => exact keyRow_timer hc rx hwf .wrRsvd
  | uartRdTx => exact keyRow_uart hc rx hwf fun hnamed => .rdTx hnamed rfl
  | uartRdRx => exact keyRow_uart hc rx hwf fun hnamed => .rdRx hnamed rfl
  | uartRdSt => exact keyRow_uart hc rx hwf fun hnamed => .rdSt hnamed rfl
  | uartWrTx d => exact keyRow_uart hc rx hwf fun hnamed => .wrTx hnamed rfl
  | uartWrRx d => exact keyRow_uart hc rx hwf fun hnamed => .wrRx hnamed rfl
  | uartWrSt d => exact keyRow_uart hc rx hwf fun hnamed => .wrSt hnamed rfl
  | uartRdRsvd off => exact keyRow_uart hc rx hwf .rdRsvd
  | uartWrRsvd off d => exact keyRow_uart hc rx hwf .wrRsvd
  | busUnmapped x => exact keyRow_encodeAccess rx (.unmapped (of_decide_eq_true hwf))
  | ramAccess x => exact keyRow_encodeAccess rx (.ram (of_decide_eq_true hwf))
  | romAccess k x => exact keyRow_encodeAccess rx (.rom (of_decide_eq_true hwf))
  | busBadSize x =>
    obtain ⟨hit, hsize⟩ := Bool.and_eq_true_iff.mp hwf
    exact keyRow_encodeAccess rx (.badSize hit (of_decide_eq_true hsize))
  | busMisaligned x =>
    simp only [Instr.wf, Bool.and_eq_true, decide_eq_true_eq, Bool.not_eq_true'] at hwf
    obtain ⟨⟨hit, hsize⟩, haligned⟩ := hwf
    exact keyRow_encodeAccess rx (.misaligned hit hsize haligned)
  | timerTick n =>
    obtain ⟨hn, hfit⟩ := Bool.and_eq_true_iff.mp hwf
    exact .event (.tick (of_decide_eq_true hn) (of_decide_eq_true hfit))
  | uartReceive b => exact .event (.receive (by simpa [Instr.fitsState] using hfits))
  | uartReceiveViolation b => exact .event (.violation hfits)
  | uartCanReceive => exact .event .canReceive
  | reset => exact .event .reset
  | uartEpEvent ev => exact .event .epEvent
  | refusedRsv k => exact .reserved (of_decide_eq_true hwf)
  | refusedKind67 k =>
    obtain ⟨hrsv, hkind⟩ := Bool.and_eq_true_iff.mp hwf
    exact .kind67 (of_decide_eq_true hrsv) (of_decide_eq_true hkind)
  | refusedKind815 k =>
    obtain ⟨hrsv, hkind⟩ := Bool.and_eq_true_iff.mp hwf
    exact .kind815 (of_decide_eq_true hrsv) (of_decide_eq_true hkind)
  | refusedEventArg k =>
    simp only [Instr.wf, Bool.and_eq_true, decide_eq_true_eq, Bool.not_eq_true'] at hwf
    obtain ⟨⟨hrsv, hkind⟩, harg⟩ := hwf
    exact .event (.refused hrsv hkind harg)

end Encode

/-- Settles O40: the key of an operation is a row of it, and no other operation has that row. -/
theorem decodeInvertsEncode : Obligations.DecodeInvertsEncode :=
  fun _ _ _ hc hwf hfits => (keyRow_encode hc hwf hfits).decode_eq hc

/-- Settles O43. -/
theorem writtenOutKeysDecode : Obligations.WrittenOutKeysDecode := by
  unfold Obligations.WrittenOutKeysDecode
  decide

/-! ### The bits of a key -/

/-- Settles O30: a register row is an ACCESS key's with the `SZ` of ACCESS_SIZE, and only `W` is left open. -/
theorem onlyWordKeysReachRegisters : Obligations.OnlyWordKeysReachRegisters := by
  intro c rx k d hreg
  obtain ⟨hrsv, hkind, row⟩ := (keyRow_decode c rx k d).accessRow_of_register hreg
  have hsz : keySz k = szOfSize c.accessSize := by
    rw [← row.size_of_register hreg, accessOf, szOfSize_sizeOfSz]
  have hrsvNat : k.toNat / 2 ^ 35 % 2 = 0 := by rw [← keyRsv_toNat, hrsv]; rfl
  have hkindNat : k.toNat / 2 ^ 36 = 0 := by rw [← keyKind_toNat, hkind]; rfl
  refine ⟨?_, hsz, fun hb4 => ?_⟩
  · apply BitVec.eq_of_toNat_eq
    simp only [BitVec.extractLsb'_toNat, Nat.shiftRight_eq_div_pow, BitVec.toNat_ofNat]
    omega
  · have hszNat : k.toNat / 2 ^ 33 % 4 = 2 := by rw [← keySz_toNat, hsz, hb4]; rfl
    simp only [← BitVec.toNat_inj, BitVec.extractLsb'_toNat, Nat.shiftRight_eq_div_pow, BitVec.toNat_ofNat]
    omega

theorem keyRsv_eq_one_iff (k : Key) : keyRsv k = 1#1 ↔ k.getLsbD 35 = true := by
  rw [← BitVec.toNat_inj, keyRsv_toNat, BitVec.getLsbD, Nat.testBit_eq_decide_div_mod_eq, decide_eq_true_eq]
  rfl

theorem keyRsv_eq_zero_of_bit {k : Key} (h : k.getLsbD 35 = false) : keyRsv k = 0#1 :=
  keyRsv_eq_zero (mt (keyRsv_eq_one_iff k).mp (ne_true_of_eq_false h))

theorem encodeEvent_key_toNat (kind : BitVec 4) (a : Addr) :
    (encodeEvent kind a).key.toNat = kind.toNat * 2 ^ 36 + a.toNat := by
  simp [encodeEvent, mkKey_toNat]

/-- The fields of an event key that is not refused, as numbers: W and SZ are 0 and A has R56's range. -/
theorem EventRow.args_in_range {c : Config} {rx : Bool} {k : Key} {i : Instr} (row : EventRow c rx k i)
    (hi : i ≠ .refusedEventArg k) :
    k.toNat / 2 ^ 32 % 8 = 0
    ∧ (k.toNat / 2 ^ 36 = 1 → k.toNat % 2 ^ 32 < c.numTimers)
    ∧ (k.toNat / 2 ^ 36 = 2 → k.toNat % 2 ^ 32 < 2 ^ 8)
    ∧ (k.toNat / 2 ^ 36 = 3 ∨ k.toNat / 2 ^ 36 = 4 → k.toNat % 2 ^ 32 = 0)
    ∧ (k.toNat / 2 ^ 36 = 5 → k.toNat % 2 ^ 32 < 2) := by
  cases row with
  | @tick n inst fits =>
    simp only [encodeEvent_key_toNat, BitVec.toNat_ofNat, Nat.mod_eq_of_lt fits]
    omega
  | @receive b | @violation b =>
    have hb := b.isLt
    simp only [encodeEvent_key_toNat, BitVec.toNat_ofNat, BitVec.toNat_setWidth]
    omega
  | canReceive | reset => simp [encodeEvent_key_toNat]
  | @epEvent ev => cases ev <;> simp [encodeEvent_key_toNat, epEventBit]
  | refused => exact absurd rfl hi

/-- Settles O32: each malformed key is its refusing row, and that row's meaning is the refusal. -/
theorem malformedKeysAreRefused : Obligations.MalformedKeysAreRefused := by
  intro s k d
  have hexec {i : Instr} (h : decodeIn s ⟨k, d⟩ = i) : perform ⟨k, d⟩ s = exec i s := congrArg (exec · s) h
  refine ⟨rfl, rfl, rfl, rfl, fun hbit => ?_, fun hbit hkind => ?_, fun hbit hkind => ?_, fun hbit hlo hhi hargs => ?_⟩
  · exact hexec (decode_reserved _ _ _ ((keyRsv_eq_one_iff k).mpr hbit))
  · refine hexec (decode_kind67 _ _ _ (keyRsv_eq_zero_of_bit hbit) ?_)
    rwa [← BitVec.toNat_inj, ← BitVec.toNat_inj, keyKind_toNat]
  · refine hexec (decode_kind815 _ _ _ (keyRsv_eq_zero_of_bit hbit) ?_)
    rwa [BitVec.le_def, keyKind_toNat]
  · have hrsv := keyRsv_eq_zero_of_bit hbit
    have hkind : 1#4 ≤ keyKind k ∧ keyKind k ≤ 5#4 := by
      rw [BitVec.le_def, BitVec.le_def, keyKind_toNat]
      exact ⟨hlo, hhi⟩
    refine hexec (i := .refusedEventArg k) ((decode_event _ _ _ hrsv hkind).trans ?_)
    by_contra hne
    obtain ⟨hwsz, htick, hrecv, hzero, hep⟩ :=
      (eventRow_decodeEvent (c := s.cfg) (rxReady s.cfg s.uart) hrsv hkind).args_in_range hne
    omega

/-! ### The steps of a script's other lines -/

/-- A timer's register rows complete where the timer exists (R98). -/
theorem TimerRow.exec_next {c : Config} {n off : Nat} {x : Xfer} {i : Instr} (row : TimerRow c n off x i) {s : State}
    (hn : n < s.timers.length) : ∃ t, exec i s = .next t := by
  cases row with
  | wrControl | rdValue => exact ⟨_, withTimer_some _ (List.getElem?_eq_getElem hn)⟩
  | rdRsvd | wrRsvd | rdControl | wrValue => exact ⟨_, rfl⟩

theorem UartRow.exec_next {c : Config} {off : Nat} {x : Xfer} {i : Instr} (row : UartRow c off x i) (s : State) :
    ∃ t, exec i s = .next t := by
  cases row <;> exact ⟨_, rfl⟩

/-- A bus transaction completes in every legal state, whatever its row (R98). -/
theorem AccessRow.exec_next {s : State} {x : Access} {i : Instr} (row : AccessRow s.cfg x i) (hs : Legal s) :
    ∃ t, exec i s = .next t := by
  cases row with
  | unmapped | ram | rom | badSize | misaligned => exact ⟨_, rfl⟩
  | timer hit _ _ row =>
    obtain ⟨hn, -⟩ := timer_bounds_of_route hit
    obtain ⟨-, hcount⟩ := hs
    exact row.exec_next (hcount.symm ▸ hn)
  | uart _ _ _ row => exact row.exec_next s

/-- No operation moves the script's position. -/
theorem exec_seq {i : Instr} {s t : State} (h : exec i s = .next t) : t.seq = s.seq := by
  have hsame : exec i s = .next (t.withSeq s.seq) := exec_withSeq h s.seq
  have ht : t = t.withSeq s.seq := Host.Outcome.next.inj (h.symm.trans hsame)
  calc t.seq = (t.withSeq s.seq).seq := congrArg State.seq ht
    _ = s.seq := rfl

/-- The 4-byte read of a POLL as an operation (R49, R61). -/
theorem busOp_read_b4 (a : Addr) : busOp a .b4 .read = ⟨wordKey 0#1 a.toNat, 0#32⟩ := by
  rw [wordKey, BitVec.ofNat_toNat, BitVec.setWidth_eq]
  rfl

/-- A POLL at its read, once the read is done (R61). -/
theorem runPoll_read {s t : State} {a m v : Word} {env : List Op} (hsub : s.seq.sub = 0)
    (hread : perform (busOp a .b4 .read) s = .next t) :
    runPoll a m v env s =
      .next (if t.port.data &&& m = v then t.advance else t.goto t.seq.line (pollSub env 0)) := by
  simp only [runPoll, hsub, hread]
  split_ifs <;> rfl

theorem pollSub_zero (env : List Op) : pollSub env 0 = if env = [] then 0 else 1 := by
  cases env <;> simp [pollSub]

/-- Settles O45: the read completes, and the test of its data only moves the position. -/
theorem pollRereadsUntilMatch : Obligations.PollRereadsUntilMatch := by
  intro s a m v env hline hsub hs
  obtain ⟨t, ht⟩ : ∃ t, perform (busOp a .b4 .read) s = .next t := by
    have hdecode : decodeIn s (busOp a .b4 .read) = decodeAccess s.cfg ⟨a, .b4, .read⟩ :=
      decodeIn_accessKey s ⟨a, .b4, .read⟩
    rw [perform, hdecode]
    exact (accessRow_decodeAccess _ _).exec_next hs
  have hseq : t.seq = s.seq := exec_seq ht
  have hstep := (step_of_currentLine hline).trans (runPoll_read (m := m) (v := v) (env := env) hsub ht)
  rw [busOp_read_b4] at ht
  by_cases hmatch : t.port.data &&& m = v
  · rw [if_pos hmatch] at hstep
    exact ⟨t, _, ht, hstep, rfl, by simp [hseq], fun _ => by simp [hseq], fun hne => absurd hmatch hne⟩
  · rw [if_neg hmatch] at hstep
    exact ⟨t, _, ht, hstep, rfl, by simp [hseq], fun heq => absurd heq hmatch, fun _ => by simp [hseq, pollSub_zero]⟩

/-- Inside the braces of a POLL the next environment operation is performed, the position moved past it (R61). -/
theorem runPoll_brace {s : State} {a m v : Word} {env : List Op} {j : Nat} {o : Op} (hsub : s.seq.sub = j + 1)
    (ho : env[j]? = some o) : runPoll a m v env s = perform o (s.goto s.seq.line (pollSub env (j + 1))) := by
  simp only [runPoll, hsub, ho]

/-- Settles O46. -/
theorem pollBracesRunInOrder : Obligations.PollBracesRunInOrder :=
  fun _ _ _ _ _ _ _ hline hsub ho => (step_of_currentLine hline).trans (runPoll_brace hsub ho)

/-- Settles O47: an EXPECT looks at the state only, and a passed one moves to the next line. -/
theorem expectStopsFailedTest : Obligations.ExpectStopsFailedTest := by
  intro s v hline
  have hstep := step_of_currentLine hline
  refine ⟨fun heq => ?_, fun hne => ?_⟩
  · exact hstep.trans (if_pos (decide_eq_true heq))
  · exact hstep.trans (if_neg (ne_true_of_eq_false (decide_eq_false hne)))

/-! ### The expansion of TICKS -/

/-- Settles O49: the operand's number has room in A, so each of the lines has the key of that tick. -/
theorem ticksExpandToTickLines : Obligations.TicksExpandToTickLines := by
  intro c names n k v count hn hk
  have hbits : operandBits 32 c names n = some v := operandBits_eq_some.mpr hn
  have hticks : envOps c names (.ticks n k) = some (List.replicate count (encodeEvent 1#4 v)) := by
    simp [envOps, hbits, hk]
  have htick : envOps c names (.tick n) = some [encodeEvent 1#4 v] := by
    simp [envOps, hbits]
  constructor
  · simp [linesOf, hticks, encodeEvent]
  · simp [linesOf, htick, encodeEvent]

end Sys2Proof.Machine

/-! SUPPORT. The timers (R63 to R73): a timer's entry of the state, the operations on it and their keys, what changes it,
and the count after any number of ticks. -/

namespace Sys2Proof.Machine

open Claims

/-! ### One timer of the state -/

theorem State.setTimer_get_same {s : State} {n : Nat} (hn : n < s.timers.length) (u : Timer) :
    (s.setTimer n u).timers[n]? = some u := by
  simp [hn]

theorem State.setTimer_get_ne (s : State) {n m : Nat} (h : m ≠ n) (u : Timer) :
    (s.setTimer n u).timers[m]? = s.timers[m]? :=
  List.getElem?_set_ne h.symm

/-- The later of two writes of a timer stands. -/
theorem State.setTimer_setTimer (s : State) (n : Nat) (u v : Timer) : (s.setTimer n u).setTimer n v = s.setTimer n v := by
  simp [State.setTimer]

/-! ### The operations on a timer that exists -/

section TimerExec
variable {s : State} {n : Nat}

theorem exec_timerWrControl (d : Word) (hn : n < s.timers.length) :
    exec (.timerWrControl n d) s = .next (s.setTimer n (startedTimer s.cfg)).writeOk :=
  withTimer_some _ (List.getElem?_eq_getElem hn)

theorem exec_timerRdValue {u : Timer} (hu : s.timers[n]? = some u) :
    exec (.timerRdValue n) s = .next (s.readOk (valueData s.cfg u)) :=
  withTimer_some _ hu

theorem exec_timerTick {u : Timer} (hu : s.timers[n]? = some u) :
    exec (.timerTick n) s = .next (s.setTimer n (tickTimer s.cfg u)) :=
  withTimer_some _ hu

theorem data_of_exec_timerRdValue {t : State} (h : exec (.timerRdValue n) s = .next t) :
    ∃ u, s.timers[n]? = some u ∧ t.port.data = valueData s.cfg u := by
  obtain ⟨u, hu, hk⟩ := withTimer_next h
  obtain rfl := Host.Outcome.next.inj hk
  exact ⟨u, hu, rfl⟩

theorem timer_of_exec_timerTick {t : State} {u : Timer} (hu : s.timers[n]? = some u)
    (h : exec (.timerTick n) s = .next t) : t.timers[n]? = some (tickTimer s.cfg u) := by
  obtain ⟨hn, -⟩ := List.getElem?_eq_some_iff.mp hu
  obtain rfl := Host.Outcome.next.inj ((exec_timerTick hu).symm.trans h)
  exact State.setTimer_get_same hn _

end TimerExec

/-! ### The keys of a timer's registers -/

/-- The key of a register access at an aligned offset of a timer's window decodes to the row of that offset (R52). -/
theorem decodeIn_timerKey {s : State} {n off : Nat} {i : Instr} {w : BitVec 1} {d : Word} (hs : Legal s)
    (hoff : timerOffOk s.cfg n off = true) (row : TimerRow s.cfg n off (xferOfW w d) i) :
    decodeIn s ⟨regKey s.cfg w (timerAddr s.cfg n off), d⟩ = i := by
  obtain ⟨hc, -⟩ := hs
  have haccess : accessOf (regKey s.cfg w (timerAddr s.cfg n off)) d
      = regAccess s.cfg (timerRegion s.cfg n) off (xferOfW w d) := by
    simp [accessOf, regAccess, regKey, timerAddr, timerRegion]
  have hrow : KeyRow s.cfg (rxReady s.cfg s.uart) (regKey s.cfg w (timerAddr s.cfg n off)) d i :=
    .access (keyRsv_mkKey _ _ _ _ _) (keyKind_mkKey _ _ _ _ _) (haccess ▸ accessRow_timer hc hoff row)
  exact hrow.decode_eq hc

/-- The key of a named register, in the register file, decodes to the row of the register (R9, R52). -/
theorem decodeIn_timerNamedKey {s : State} {n reg : Nat} {i : Instr} {w : BitVec 1} {d : Word} (hs : Legal s)
    (hnamed : timerNamed s.cfg n reg = true)
    (row : inRegFile s.cfg (timerRegCount s.cfg) reg = true → TimerRow s.cfg n reg (xferOfW w d) i) :
    decodeIn s ⟨regKey s.cfg w (timerAddr s.cfg n reg), d⟩ = i := by
  obtain ⟨hoff, hfile⟩ := Bool.and_eq_true_iff.mp hnamed
  exact decodeIn_timerKey hs hoff (row hfile)

/-- The key of a tick decodes in every state: no other event has its KIND (R56). -/
theorem decodeIn_tickKey (s : State) {n : Nat} (hn : n < s.cfg.numTimers) (hfits : n < 2 ^ 32) (d : Word) :
    decodeIn s ⟨mkKey 1#4 0#1 0#2 0#1 (BitVec.ofNat 32 n), d⟩ = .timerTick n := by
  have row : EventRow s.cfg (rxReady s.cfg s.uart) _ (.timerTick n) := .tick hn hfits
  obtain ⟨hrsv, hkind⟩ := row.kind
  exact (decode_event _ _ d hrsv hkind).trans row.decode_eq

/-- An offset that is neither register's is "any other" (R52). -/
theorem timerRsvd_of_ne {c : Config} {off : Nat} (hcontrol : off ≠ c.timerControlOff) (hvalue : off ≠ c.timerValueOff) :
    timerRsvd c off = true := by
  simp [timerRsvd, hcontrol, hvalue]

/-! ### The statements about one operation -/

/-- Settles O1: the second write finds the timer as the first left it. -/
theorem controlWriteRestartsTimer : Obligations.ControlWriteRestartsTimer := by
  intro s n d hn
  refine ⟨⟨_, exec_timerWrControl d hn, State.setTimer_get_same hn _, fun m hm => s.setTimer_get_ne hm _, rfl, rfl,
    fun d' => ?_⟩, fun hs hnamed => decodeIn_timerNamedKey hs hnamed fun hfile => .wrControl hfile rfl⟩
  have hn' : n < (s.setTimer n (startedTimer s.cfg)).writeOk.timers.length := by simpa using hn
  calc exec (.timerWrControl n d') (s.setTimer n (startedTimer s.cfg)).writeOk
      = .next ((s.setTimer n (startedTimer s.cfg)).setTimer n (startedTimer s.cfg)).writeOk :=
        exec_timerWrControl d' hn'
    _ = .next (s.setTimer n (startedTimer s.cfg)).writeOk := by rw [State.setTimer_setTimer]

/-- Settles O2. -/
theorem valueReadReturnsMaskedCount : Obligations.ValueReadReturnsMaskedCount := by
  intro s n u hu
  exact ⟨⟨_, exec_timerRdValue hu, rfl, fun hmask => valueData_toNat hmask u, rfl, rfl, rfl⟩,
    fun hs hnamed _ => decodeIn_timerNamedKey hs hnamed fun hfile => .rdValue hfile rfl⟩

/-- Settles O3: each of the four rows is R91's response with its own offset. -/
theorem timerInvalidAccessesOnlyLog : Obligations.TimerInvalidAccessesOnlyLog := by
  intro s n off d
  refine ⟨⟨_, rfl, rfl⟩, ⟨_, rfl, rfl⟩, ⟨_, rfl, rfl⟩, ⟨_, rfl, rfl⟩, fun hs hnamed => ?_, fun hs hnamed => ?_,
    fun hs hoff hcontrol hvalue => ?_⟩
  · exact decodeIn_timerNamedKey hs hnamed fun hfile => .rdControl hfile rfl
  · exact decodeIn_timerNamedKey hs hnamed fun hfile => .wrValue hfile rfl
  · have hrsvd : timerRsvd s.cfg off = true := timerRsvd_of_ne hcontrol hvalue
    exact ⟨decodeIn_timerKey hs hoff (.rdRsvd hrsvd), decodeIn_timerKey hs hoff (.wrRsvd hrsvd)⟩

section TickCases
variable {c : Config} {u : Timer}

/-- The count of 0 or, with `ZERO_VISIBLE = false`, of 1 is the last before the reload (R69). -/
theorem tickTimer_reload (hm : u.mode = .running) (hlast : u.cnt.toNat ≤ if c.zeroVisible then 0 else 1) :
    tickTimer c u = ⟨.running, c.timerLimit⟩ := by
  rw [tickTimer_running c u hm]
  rcases nextCount_cases c u.cnt with ⟨-, -, hn⟩ | ⟨-, -, hn⟩ | ⟨hz, hge, -⟩ | ⟨hz, hge, -⟩
  · rw [hn]
  · rw [hn]
  · simp [hz] at hlast; omega
  · simp [hz] at hlast; omega

/-- Every other count goes down by one (R69). -/
theorem tickTimer_countDown (hm : u.mode = .running) (hmore : (if c.zeroVisible then 0 else 1) < u.cnt.toNat) :
    tickTimer c u = ⟨.running, BitVec.ofNat 32 (u.cnt.toNat - 1)⟩ := by
  rw [tickTimer_running c u hm]
  rcases nextCount_cases c u.cnt with ⟨hz, hle, -⟩ | ⟨hz, hle, -⟩ | ⟨-, -, hn⟩ | ⟨-, -, hn⟩
  · simp [hz] at hmore; omega
  · simp [hz] at hmore; omega
  · rw [← hn, BitVec.ofNat_toNat, BitVec.setWidth_eq]
  · rw [← hn, BitVec.ofNat_toNat, BitVec.setWidth_eq]

end TickCases

/-- Settles O4, by R69's cases of the ticked timer. -/
theorem tickCountsDownOrReloads : Obligations.TickCountsDownOrReloads := by
  intro s n u hu
  obtain ⟨hn, -⟩ := List.getElem?_eq_some_iff.mp hu
  have hget {v : Timer} (hv : tickTimer s.cfg u = v) : (s.setTimer n (tickTimer s.cfg u)).timers[n]? = some v :=
    hv ▸ State.setTimer_get_same hn _
  refine ⟨⟨_, exec_timerTick hu, rfl, fun m hm => s.setTimer_get_ne hm _, fun hm => ?_, fun hm hz hle => ?_,
    fun hm hz hge => ?_, fun hm hz h0 => ?_, fun hm hz hge => ?_⟩, fun hn' hfits d => decodeIn_tickKey s hn' hfits d⟩
  · exact hget (tickTimer_stopped _ _ hm)
  · exact hget (tickTimer_reload hm (by simpa [hz] using hle))
  · exact hget (tickTimer_countDown hm (by simp only [hz]; exact hge))
  · exact hget (tickTimer_reload hm (by simpa [hz] using h0))
  · exact hget (tickTimer_countDown hm (by simp only [hz]; exact hge))

/-! ### What changes a timer, and what it sees -/

/-- The operations that change timer `n` (R71). -/
theorem changesTimer_eq_true_iff {n : Nat} {i : Instr} :
    changesTimer n i = true ↔ (∃ d, i = .timerWrControl n d) ∨ i = .timerTick n ∨ i = .reset := by
  cases i <;> simp [changesTimer]

/-- Of the effects on the devices, a start and a tick touch their own timer, and the reset every one. -/
theorem DeviceEffect.timer_of_not_changes {s t : State} {i : Instr} (h : DeviceEffect s i t) {n : Nat}
    (hi : changesTimer n i = false) : t.timers[n]? = s.timers[n]? := by
  cases h with
  | untouched same => rw [same.timers]
  | @started m | @ticked m => exact s.setTimer_get_ne (Ne.symm (of_decide_eq_false hi)) _
  | consumed | sent | accepted => rfl
  | cleared => cases hi

/-- Settles O6. -/
theorem timersAreIndependent : Obligations.TimersAreIndependent :=
  fun _ _ _ _ h hi => (exec_deviceEffect h).timer_of_not_changes hi

/-- Settles O7: the data read and the ticked timer are functions of T[n] and the three parameters. -/
theorem timerSeesOnlyItself : Obligations.TimerSeesOnlyItself := by
  intro s s' t t' v v' n htimer hzero hlimit hmask hread hread' htick htick'
  obtain ⟨u, hu, hdata⟩ := data_of_exec_timerRdValue hread
  obtain ⟨u', hu', hdata'⟩ := data_of_exec_timerRdValue hread'
  obtain rfl : u = u' := Option.some.inj (hu.symm.trans (htimer.trans hu'))
  constructor
  · rw [hdata, hdata', valueData, valueData, hmask]
  · rw [timer_of_exec_timerTick hu htick, timer_of_exec_timerTick hu' htick', tickTimer_congr hlimit hzero]

/-! ### The count after any number of ticks -/

/-- The timer `k` ticks after its start, in closed form (R72). -/
def countedTimer (c : Config) (k : Nat) : Timer := ⟨.running, BitVec.ofNat 32 (c.timerLimit.toNat - k % period c)⟩

theorem countedTimer_cnt_toNat (c : Config) (k : Nat) :
    (countedTimer c k).cnt.toNat = c.timerLimit.toNat - k % period c :=
  (BitVec.toNat_ofNat _ _).trans (Nat.mod_eq_of_lt (Nat.lt_of_le_of_lt (Nat.sub_le _ _) c.timerLimit.isLt))

theorem countedTimer_zero (c : Config) : countedTimer c 0 = startedTimer c := by
  simp [countedTimer, startedTimer]

/-- One more tick moves the place in the period by one, or from its end back to its start. -/
theorem succ_mod_cases {p : Nat} (hp : 0 < p) (k : Nat) :
    (k % p + 1 = p ∧ (k + 1) % p = 0) ∨ (k % p + 1 < p ∧ (k + 1) % p = k % p + 1) := by
  rw [← Nat.mod_add_mod k p 1]
  rcases Nat.eq_or_lt_of_le (show k % p + 1 ≤ p from Nat.mod_lt k hp) with hlast | hmore
  · exact .inl ⟨hlast, by rw [hlast, Nat.mod_self]⟩
  · exact .inr ⟨hmore, Nat.mod_eq_of_lt hmore⟩

/-- A period of 0 ticks is that of a limit of 0 with `ZERO_VISIBLE = false`; the count then stays 0. -/
theorem tickTimer_countedTimer_of_period_zero {c : Config} (hp : period c = 0) (k : Nat) :
    tickTimer c (countedTimer c k) = countedTimer c (k + 1) := by
  have hz : c.zeroVisible = false := by
    by_contra hz
    simp [period, Bool.eq_true_of_not_eq_false hz] at hp
  have hlimit : c.timerLimit = 0#32 := BitVec.eq_of_toNat_eq (by simpa [period, hz] using hp)
  rw [tickTimer_reload rfl (by simp [hz, countedTimer_cnt_toNat, hlimit])]
  simp [countedTimer, hlimit]

/-- The closed form counts as R69 does: the reload falls on the end of the period. -/
theorem tickTimer_countedTimer (c : Config) (k : Nat) : tickTimer c (countedTimer c k) = countedTimer c (k + 1) := by
  rcases Nat.eq_zero_or_pos (period c) with hp | hp
  · exact tickTimer_countedTimer_of_period_zero hp k
  have hcnt : (countedTimer c k).cnt.toNat = c.timerLimit.toNat - k % period c := countedTimer_cnt_toNat c k
  have hperiod : period c + (if c.zeroVisible then 0 else 1) = c.timerLimit.toNat + 1 := by
    unfold period
    split_ifs <;> rfl
  have hrunning : (countedTimer c k).mode = .running := rfl
  rcases succ_mod_cases hp k with ⟨hlast, hnext⟩ | ⟨hmore, hnext⟩
  · rw [tickTimer_reload hrunning (by omega), countedTimer, hnext]
    simp
  · rw [tickTimer_countDown hrunning (by omega), hcnt, Nat.sub_sub, ← hnext, countedTimer]

/-- An operation that neither resets nor restarts timer `n` adds its own tick, if it is one, to those counted. -/
theorem exec_countedTimer {s t : State} {i : Instr} {n k : Nat} (h : exec i s = .next t) (hreset : i ≠ .reset)
    (hstart : ∀ d, i ≠ .timerWrControl n d) (hu : s.timers[n]? = some (countedTimer s.cfg k)) :
    t.timers[n]? = some (countedTimer s.cfg (k + [i].count (.timerTick n))) := by
  by_cases htick : i = .timerTick n
  · subst htick
    rw [timer_of_exec_timerTick hu h, tickTimer_countedTimer, List.count_singleton_self]
  · have hkeeps : changesTimer n i = false := by
      simpa [hreset, hstart, htick] using (changesTimer_eq_true_iff (n := n) (i := i)).not
    rw [(exec_deviceEffect h).timer_of_not_changes hkeeps, hu]
    simp [htick]

theorem execAll_cons_next {i : Instr} {is : List Instr} {s t : State} (h : execAll (i :: is) s = .next t) :
    ∃ r, exec i s = .next r ∧ execAll is r = .next t := by
  rw [execAll] at h
  split at h
  · exact ⟨_, ‹_›, h⟩
  · cases h
  · cases h

/-- The invariant behind R72, along any operations that neither reset nor restart timer `n`. -/
theorem execAll_countedTimer {is : List Instr} {s t : State} {n k : Nat} (h : execAll is s = .next t)
    (his : ∀ i ∈ is, i ≠ .reset ∧ ∀ d, i ≠ .timerWrControl n d) (hu : s.timers[n]? = some (countedTimer s.cfg k)) :
    t.cfg = s.cfg ∧ t.timers[n]? = some (countedTimer s.cfg (k + is.count (.timerTick n))) := by
  induction is generalizing s k with
  | nil => obtain rfl := Host.Outcome.next.inj h; exact ⟨rfl, hu⟩
  | cons i is ih =>
    obtain ⟨r, hr, hrs⟩ := execAll_cons_next h
    obtain ⟨⟨hreset, hstart⟩, hrest⟩ := List.forall_mem_cons.mp his
    have hcfg : r.cfg = s.cfg := (exec_sameComposition hr).cfg
    have hur : r.timers[n]? = some (countedTimer r.cfg (k + [i].count (.timerTick n))) := by
      rw [hcfg]
      exact exec_countedTimer hr hreset hstart hu
    obtain ⟨hcfg', hut⟩ := ih hrs hrest hur
    refine ⟨hcfg'.trans hcfg, ?_⟩
    rw [hut, hcfg, Nat.add_assoc, ← List.count_append, List.singleton_append]

/-- With R3's limit and mask VALUE shows the closed form's number (R72). -/
theorem valueData_countedTimer_toNat {c : Config} (hlimit : c.timerLimit = 0xFFFF#32) (hmask : c.valueMask = 0xFFFF#32)
    (k : Nat) : (valueData c (countedTimer c k)).toNat = 0xFFFF - k % (if c.zeroVisible then 0x10000 else 0xFFFF) := by
  have hl : c.timerLimit.toNat = 0xFFFF := by rw [hlimit]; rfl
  rw [valueData_toNat hmask, countedTimer_cnt_toNat, Nat.mod_eq_of_lt (by omega), period, hl]

/-- Settles O5: the CONTROL write starts the count at the closed form's 0, the operations after it keep the closed form, and
VALUE shows it. -/
theorem valueFollowsClosedForm : Obligations.ValueFollowsClosedForm := by
  intro s t n d is hn his h
  obtain ⟨r, hr, hrs⟩ := execAll_cons_next h
  obtain rfl := Host.Outcome.next.inj ((exec_timerWrControl d hn).symm.trans hr)
  have hstarted : (s.setTimer n (startedTimer s.cfg)).writeOk.timers[n]? = some (countedTimer s.cfg 0) := by
    rw [countedTimer_zero]
    exact State.setTimer_get_same hn _
  obtain ⟨hcfg, hut⟩ : t.cfg = s.cfg ∧ t.timers[n]? = some (countedTimer s.cfg (0 + is.count (.timerTick n))) :=
    execAll_countedTimer (s := (s.setTimer n (startedTimer s.cfg)).writeOk) hrs his hstarted
  rw [Nat.zero_add] at hut
  have hread := exec_timerRdValue hut
  rw [hcfg] at hread
  exact ⟨_, hread, rfl, fun hlimit hmask => valueData_countedTimer_toNat hlimit hmask _⟩

end Sys2Proof.Machine

/-! SUPPORT. The UART and its endpoint (R74 to R88): the keys of its registers and of the endpoint's operations, the bus
accesses, the deliveries, and what stays while none arrives; and the reset of the devices (R86, R112). -/

namespace Sys2Proof.Machine

open Claims

/-! ### The keys of the UART's registers -/

/-- The key of a register access at an aligned offset of the UART's window decodes to the row of that offset (R53). -/
theorem decodeIn_uartKey {s : State} {off : Nat} {i : Instr} {w : BitVec 1} {d : Word} (hs : Legal s)
    (hoff : uartOffOk s.cfg off = true) (row : UartRow s.cfg off (xferOfW w d) i) :
    decodeIn s ⟨regKey s.cfg w (uartAddr s.cfg off), d⟩ = i := by
  obtain ⟨hc, -⟩ := hs
  have haccess : accessOf (regKey s.cfg w (uartAddr s.cfg off)) d
      = regAccess s.cfg (uartRegion s.cfg) off (xferOfW w d) := by
    simp [accessOf, regAccess, regKey, uartAddr, uartRegion]
  have hrow : KeyRow s.cfg (rxReady s.cfg s.uart) (regKey s.cfg w (uartAddr s.cfg off)) d i :=
    .access (keyRsv_mkKey _ _ _ _ _) (keyKind_mkKey _ _ _ _ _) (haccess ▸ accessRow_uart hc hoff row)
  exact hrow.decode_eq hc

/-- The key of a named register, in the register file, decodes to the row of the register (R9, R53). -/
theorem decodeIn_uartNamedKey {s : State} {reg : Nat} {i : Instr} {w : BitVec 1} {d : Word} (hs : Legal s)
    (hnamed : uartNamed s.cfg reg = true)
    (row : inRegFile s.cfg (uartRegCount s.cfg) reg = true → UartRow s.cfg reg (xferOfW w d) i) :
    decodeIn s ⟨regKey s.cfg w (uartAddr s.cfg reg), d⟩ = i := by
  obtain ⟨hoff, hfile⟩ := Bool.and_eq_true_iff.mp hnamed
  exact decodeIn_uartKey hs hoff (row hfile)

/-- An offset that is none of the three registers' is "any other" (R53). -/
theorem uartRsvd_of_ne {c : Config} {off : Nat} (htx : off ≠ c.uartTxOff) (hrx : off ≠ c.uartRxOff)
    (hst : off ≠ c.uartStOff) : uartRsvd c off = true := by
  simp [uartRsvd, htx, hrx, hst]

/-- The key of an event decodes to its row in every state, legal or not (R56). -/
theorem decodeIn_eventKey {s : State} {k : Key} {i : Instr} (row : EventRow s.cfg (rxReady s.cfg s.uart) k i)
    (d : Word) : decodeIn s ⟨k, d⟩ = i := by
  obtain ⟨hrsv, hkind⟩ := row.kind
  exact (decode_event _ _ d hrsv hkind).trans row.decode_eq

/-! ### The bus accesses -/

/-- Settles O10: the read clears RX_READY's bit of STATUS and no other. -/
theorem rxReadConsumesByte : Obligations.RxReadConsumesByte := by
  intro s
  refine ⟨⟨s.consumeRx, rfl, rfl, rxReady_clearRxReady _ _, fun j hj => ?_, rfl⟩,
    fun hs hnamed _ => decodeIn_uartNamedKey hs hnamed fun hfile => .rdRx hfile rfl⟩
  calc (clearRxReady s.cfg s.uart).st.getLsbD j = (decide (j ≠ s.cfg.rxReadyBit) && s.uart.st.getLsbD j) :=
        clearRxReady_getLsbD _ _ _
    _ = s.uart.st.getLsbD j := by rw [decide_eq_true hj, Bool.true_and]

/-- Settles O11: neither row has an effect besides its response. -/
theorem statusAccessHasNoEffect : Obligations.StatusAccessHasNoEffect := by
  intro s d
  exact ⟨rfl, rfl, fun hs hnamed =>
    ⟨decodeIn_uartNamedKey hs hnamed fun hfile => .rdSt hfile rfl,
      decodeIn_uartNamedKey hs hnamed fun hfile => .wrSt hfile rfl⟩⟩

/-- Settles O14: each of the four rows is R91's response with its own offset. -/
theorem uartInvalidAccessesOnlyLog : Obligations.UartInvalidAccessesOnlyLog := by
  intro s off d
  refine ⟨⟨_, rfl, rfl⟩, ⟨_, rfl, rfl⟩, ⟨_, rfl, rfl⟩, ⟨_, rfl, rfl⟩, fun hs hnamed => ?_, fun hs hnamed => ?_,
    fun hs hoff htx hrx hst => ?_⟩
  · exact decodeIn_uartNamedKey hs hnamed fun hfile => .rdTx hfile rfl
  · exact decodeIn_uartNamedKey hs hnamed fun hfile => .wrRx hfile rfl
  · have hrsvd : uartRsvd s.cfg off = true := uartRsvd_of_ne htx hrx hst
    exact ⟨decodeIn_uartKey hs hoff (.rdRsvd hrsvd), decodeIn_uartKey hs hoff (.wrRsvd hrsvd)⟩

/-! ### Transmission -/

/-- With no endpoint a byte is dropped (R88). -/
theorem Endpoint.emit_of_unconnected {e : Endpoint} (h : e.connected = false) (b : Byte) : e.emit b = e := by
  simp [Endpoint.emit, h]

/-- The stream after a TX write: the low byte is added where an endpoint is bound, and dropped where none is (R77, R88). -/
theorem transmit_out (s : State) (d : Word) : (s.transmit d).writeOk.ep.out
    = if s.ep.connected then s.ep.out ++ [BitVec.ofNat 8 (d.toNat % 256)] else s.ep.out := by
  rw [← txByte_eq]
  exact Endpoint.emit_out _ _

/-- A TX write changes the stream, the TX register, the response and the index of free values, and nothing else. -/
theorem transmit_frame (s : State) (d : Word) : (s.transmit d).writeOk =
    { s with ep := ⟨s.ep.connected, (s.transmit d).writeOk.ep.out⟩
             uart := ⟨s.uart.rx, s.uart.st, (s.transmit d).writeOk.uart.tx⟩
             port := (s.transmit d).writeOk.port, draw := (s.transmit d).writeOk.draw } := by
  have hep : (s.transmit d).writeOk.ep = ⟨s.ep.connected, (s.transmit d).writeOk.ep.out⟩ := by
    rw [← Endpoint.emit_connected s.ep (txByte d)]
    rfl
  rw [← hep]
  rfl

/-- Settles O12, by what a TX write does to the stream and by its frame. -/
theorem txWriteEmitsLowByte : Obligations.TxWriteEmitsLowByte := by
  intro s d
  exact ⟨⟨(s.transmit d).writeOk, rfl, fun hc => by rw [transmit_out, if_pos hc],
      fun hc => by rw [transmit_out, hc]; rfl, rfl, transmit_frame s d⟩,
    fun hs hnamed => decodeIn_uartNamedKey hs hnamed fun hfile => .wrTx hfile rfl⟩

theorem execAll_cons {i : Instr} {s r : State} (h : exec i s = .next r) (is : List Instr) :
    execAll (i :: is) s = execAll is r := by
  simp [execAll, h]

/-- Settles O13, by induction on the words written: the endpoint stays bound, so each write adds its byte at the end. -/
theorem transmittedBytesKeepOrder : Obligations.TransmittedBytesKeepOrder := by
  intro s ds hc
  induction ds generalizing s with
  | nil => exact ⟨s, rfl, (List.append_nil _).symm⟩
  | cons d ds ih =>
    have hwrite : exec (.uartWrTx d) s = .next (s.transmit d).writeOk := rfl
    have hc' : (s.transmit d).writeOk.ep.connected = true := (exec_sameComposition hwrite).connected.trans hc
    obtain ⟨t, ht, hout⟩ := ih (s.transmit d).writeOk hc'
    refine ⟨t, (execAll_cons hwrite _).trans ht, ?_⟩
    rw [hout, transmit_out, if_pos hc, List.append_assoc]
    rfl

/-! ### Deliveries -/

section Deliver
variable {s : State}

theorem deliver_accepts (hc : s.ep.connected = true) (hready : rxReady s.cfg s.uart = false) (b : Byte) :
    deliver b s = .next (s.acceptByte b) :=
  (if_pos hc).trans (if_neg (ne_true_of_eq_false hready))

theorem deliver_violates (hc : s.ep.connected = true) (hready : rxReady s.cfg s.uart = true) (b : Byte) :
    deliver b s = .next (s.protocolViolation b) :=
  (if_pos hc).trans (if_pos hready)

theorem deliver_unconnected (hc : s.ep.connected = false) (b : Byte) : deliver b s = .refused (.noEndpoint b) :=
  if_neg (ne_true_of_eq_false hc)

/-- A delivery completes only with an endpoint bound (R88). -/
theorem isDelivery_eq_false_of_unconnected {t : State} {i : Instr} (h : exec i s = .next t)
    (hc : s.ep.connected = false) : isDelivery i = false := by
  cases i with
  | uartReceive b | uartReceiveViolation b => cases (deliver_unconnected hc b).symm.trans h
  | _ => rfl

end Deliver

/-- Settles O17: the accepted byte is zero-extended into RX, and RX_READY's bit of STATUS alone is set. -/
theorem deliveryFillsRx : Obligations.DeliveryFillsRx := by
  intro s b hc hready
  refine ⟨⟨s.acceptByte b, deliver_accepts hc hready b, ?_, rxReady_setRxReady _ _, fun j hj => ?_, rfl,
    deliver_accepts hc hready b⟩, decodeIn_eventKey (.receive hready)⟩
  · exact BitVec.toNat_setWidth_of_le (by decide)
  · calc (s.acceptByte b).uart.st.getLsbD j = (decide (j = s.cfg.rxReadyBit) || s.uart.st.getLsbD j) :=
          setRxReady_getLsbD _ _ _
      _ = s.uart.st.getLsbD j := by rw [decide_eq_false hj, Bool.false_or]

/-- Settles O18: both rows of the key are the one delivery, which the state makes a violation. -/
theorem overDeliveryIsRejected : Obligations.OverDeliveryIsRejected :=
  fun _ b hc hready => ⟨deliver_violates hc hready b, deliver_violates hc hready b, rfl,
    decodeIn_eventKey (.violation hready)⟩

/-! ### The endpoint's other operations, and RESET -/

/-- Settles O15: the answer is the negation of the flag. -/
theorem canReceiveAnswersNotReady : Obligations.CanReceiveAnswersNotReady :=
  fun s d => ⟨⟨_, rfl, iff_of_eq (Bool.not_eq_true' (rxReady s.cfg s.uart)), rfl⟩, decodeIn_eventKey .canReceive d⟩

/-- Settles O20: both events are the one row of their KIND, which leaves the state as it is. -/
theorem endpointEventChangesNothing : Obligations.EndpointEventChangesNothing :=
  fun _ d => ⟨fun _ => rfl, decodeIn_eventKey (.epEvent (ev := .connect)) d,
    decodeIn_eventKey (.epEvent (ev := .disconnect)) d⟩

/-- What RESET leaves: R26's values in every timer and in the UART, whatever was there (R70, R86, R112). -/
theorem resetBlock_eq (s : State) : s.resetBlock =
    { s with timers := List.replicate s.timers.length Timer.reset, uart := Uart.reset s.cfg } := by
  have htimers : s.timers.map resetTimer = List.replicate s.timers.length Timer.reset := List.map_const'
  rw [State.resetBlock, htimers, resetUart_eq]

/-- Settles O35, by what RESET leaves and the value of TX_READY's word. -/
theorem resetClearsDevicesOnly : Obligations.ResetClearsDevicesOnly :=
  fun s d => ⟨congrArg _ (resetBlock_eq s), fun hbit => by rw [hbit, statusBit_one], decodeIn_eventKey .reset d⟩

/-! ### While no byte arrives -/

/-- RX_READY is 0, the two STATUS bits being two bits (R17). -/
def NothingPending (s : State) : Prop := s.cfg.rxReadyBit ≠ s.cfg.txReadyBit ∧ rxReady s.cfg s.uart = false

/-- Only a delivery sets RX_READY (R24): every other operation leaves nothing pending where nothing was. -/
theorem exec_keeps_nothingPending {i : Instr} {s t : State} (h : exec i s = .next t) (hi : isDelivery i = false)
    (hs : NothingPending s) : NothingPending t := by
  obtain ⟨hbits, hready⟩ := hs
  refine ⟨by rwa [(exec_sameComposition h).cfg], ?_⟩
  rcases (exec_deviceEffect h).rxReady_cases hbits with hkept | ⟨-, hdelivery⟩ | ⟨hcleared, -⟩
  · exact hkept.trans hready
  · rw [hi] at hdelivery
    cases hdelivery
  · exact hcleared

/-- What each of a list of operations keeps, the list keeps. -/
theorem execAll_keeps {P : State → Prop} {is : List Instr} {s t : State}
    (hexec : ∀ i ∈ is, ∀ s t, exec i s = .next t → P s → P t) (h : execAll is s = .next t) (hs : P s) : P t := by
  induction is generalizing s with
  | nil => obtain rfl := Host.Outcome.next.inj h; exact hs
  | cons i is ih =>
    obtain ⟨r, hr, hrs⟩ := execAll_cons_next h
    obtain ⟨hhead, hrest⟩ := List.forall_mem_cons.mp hexec
    exact ih hrest hrs (hhead _ _ hr hs)

/-- Settles O16: nothing is pending at the end, as at the start, and `can_receive` answers that. -/
theorem canReceiveStaysTrueUntilDelivery : Obligations.CanReceiveStaysTrueUntilDelivery := by
  intro s t is hbits hready his h
  have ht : NothingPending t :=
    execAll_keeps (fun i hi _ _ he => exec_keeps_nothingPending he (his i hi)) h ⟨hbits, hready⟩
  obtain ⟨-, hready'⟩ := ht
  obtain ⟨⟨u, hu, hanswer, -⟩, -⟩ := canReceiveAnswersNotReady t 0#32
  exact ⟨u, hu, hanswer.mpr hready'⟩

/-- With no endpoint no operation changes the endpoint's state: a transmitted byte is dropped (R88). -/
theorem exec_ep_of_unconnected {i : Instr} {s t : State} (h : exec i s = .next t) (hc : s.ep.connected = false) :
    t.ep = s.ep := by
  cases exec_deviceEffect h with
  | untouched same => exact same.ep
  | started | ticked | consumed | accepted | cleared => rfl
  | sent => exact Endpoint.emit_of_unconnected hc _

/-- With no endpoint no step changes the endpoint's state. -/
theorem step_ep_of_unconnected {s t : State} (h : step s = .next t) (hc : s.ep.connected = false) : t.ep = s.ep :=
  step_keeps (P := fun u => u.ep = s.ep) (fun _ _ _ hu => hu)
    (fun _ _ _ he hu => (exec_ep_of_unconnected he (hu ▸ hc)).trans hu) h rfl

/-- With no endpoint no step is a delivery, so nothing is pending after one where nothing was. -/
theorem step_keeps_nothingPending_of_unconnected {s t : State} (h : step s = .next t) (hc : s.ep.connected = false)
    (hs : NothingPending s) : NothingPending t := by
  have ht : t.ep.connected = false ∧ NothingPending t :=
    step_keeps (P := fun u => u.ep.connected = false ∧ NothingPending u) (fun _ _ _ hu => hu)
      (fun _ _ _ he ⟨hu, hpending⟩ => ⟨(exec_sameComposition he).connected.trans hu,
        exec_keeps_nothingPending he (isDelivery_eq_false_of_unconnected he hu) hpending⟩) h ⟨hc, hs⟩
  exact ht.2

/-- Settles O19: a delivery is refused, and no step touches the endpoint's state or leaves a byte pending. -/
theorem unconnectedEndpointNeverDelivers : Obligations.UnconnectedEndpointNeverDelivers := by
  intro s b hc
  refine ⟨deliver_unconnected hc b, deliver_unconnected hc b, fun t h => ?_⟩
  have hep : t.ep = s.ep := step_ep_of_unconnected h hc
  refine ⟨by rw [hep, hc], by rw [hep], fun hbits hready => ?_⟩
  obtain ⟨-, hready'⟩ := step_keeps_nothingPending_of_unconnected h hc ⟨hbits, hready⟩
  exact hready'

end Sys2Proof.Machine

/-! SUPPORT. Errors: the first error of a bus access, and only it, is reported (R96); a bus transaction always completes
(R98); the first fatal error ends composition (R94). -/

namespace Sys2Proof.Machine

open Claims

/-! ### The errors of one access -/

theorem TimerRow.ofRegister_eq_true {c : Config} {n off : Nat} {x : Xfer} {i : Instr}
    (row : TimerRow c n off x i) : ofRegister i = true := by
  cases row <;> rfl

theorem UartRow.ofRegister_eq_true {c : Config} {off : Nat} {x : Xfer} {i : Instr}
    (row : UartRow c off x i) : ofRegister i = true := by
  cases row <;> rfl

/-- A device access that passes the size and the alignment check reaches a register row (R38, R39, R51). -/
theorem AccessRow.ofRegister_eq_true {c : Config} {x : Access} {i : Instr} (row : AccessRow c x i)
    (hdev : (route c x.addr).isDevice = true) (hsize : x.size = c.accessSize)
    (haligned : alignedAccess c x.addr = true) : ofRegister i = true := by
  cases row with
  | unmapped hit | ram hit | rom hit => simp [hit, Target.isDevice] at hdev
  | badSize _ size => exact absurd hsize size
  | misaligned _ _ misaligned => simp [haligned] at misaligned
  | timer _ _ _ row => exact row.ofRegister_eq_true
  | uart _ _ _ row => exact row.ofRegister_eq_true

/-- An operation adds at most one entry to the two logs together (R21, R22). -/
theorem exec_logs_at_most_one {i : Instr} {s t : State} (h : exec i s = .next t) :
    t.ilog.length + t.rlog.length ≤ s.ilog.length + s.rlog.length + 1 := by
  cases exec_recordEffect h with
  | kept ilog rlog _ => rw [ilog, rlog]; omega
  | invalid ilog rlog _ | rejected ilog rlog _ =>
    simp only [ilog, rlog, List.length_append, List.length_singleton]
    omega
  | violated => exact Nat.le_succ _

/-- Settles O29: each clause is the decode equation of its check; the last is the bound on what one operation logs. -/
theorem firstErrorOnlyIsReported : Obligations.FirstErrorOnlyIsReported := by
  intro c x _
  refine ⟨decodeAccess_unmapped, decodeAccess_badSize, decodeAccess_misaligned, fun hdev hsize hoff => ?_,
    fun s t _ h => exec_logs_at_most_one h⟩
  exact (accessRow_decodeAccess c x).ofRegister_eq_true hdev hsize (decide_eq_true hoff)

/-! ### Completion -/

/-- Settles O33: an ACCESS key is a row of a bus transaction, every such row completes in a legal state, and no
operation moves the script's position. -/
theorem busTransactionAlwaysCompletes : Obligations.BusTransactionAlwaysCompletes := by
  intro s k d hs hkind hrsv
  have row : AccessRow s.cfg (accessOf k d) (decodeIn s ⟨k, d⟩) :=
    (keyRow_decode s.cfg (rxReady s.cfg s.uart) k d).accessRow hrsv hkind
  obtain ⟨t, ht⟩ := row.exec_next hs
  exact ⟨t, ht, exec_seq ht⟩

/-! ### Fatal errors -/

/-- The fatal errors of a slot's image: the file is missing, or larger than the flash (R109, R110). -/
inductive ImageError (w : Surroundings) (c : Config) (k : Slot) : Fatal → Prop
  | missing {file : String} (given : c.romFile k = some file) (size : w.imageSize file = none) :
    ImageError w c k (.imageMissing k)
  | tooLarge {file : String} {n : Nat} (given : c.romFile k = some file) (size : w.imageSize file = some n)
    (large : c.flashSize k < n) : ImageError w c k (.imageTooLarge k)

/-- The image of a slot, if the profile gives one, exists and fits its flash (R109, R110). -/
def ImageFits (w : Surroundings) (c : Config) (k : Slot) : Prop :=
  ∀ file, c.romFile k = some file → ∃ n, w.imageSize file = some n ∧ n ≤ c.flashSize k

section Compose
variable {w : Surroundings} {c : Config} {k : Slot} {e : Fatal}

/-- With no image given the slot's step does nothing (R109). -/
theorem installRom_absent (b : Board) (h : c.romFile k = none) : b.installRom w c k = .ok b := by
  simp [Board.installRom, h]

/-- An image that fits is loaded whole, and its region is mapped (R109, R110). -/
theorem installRom_loads (b : Board) {file : String} {n : Nat} (given : c.romFile k = some file)
    (size : w.imageSize file = some n) (fits : n ≤ c.flashSize k) : b.installRom w c k =
      .ok { b with regions := b.regions ++ [romRegion c k], loaded := b.loaded ++ [(k, n)] } := by
  simp [Board.installRom, loadImage, given, size, fits]

theorem installRom_error (b : Board) (h : ImageError w c k e) : b.installRom w c k = .error e := by
  cases h with
  | missing given size => simp [Board.installRom, loadImage, given, size]
  | tooLarge given size large => simp [Board.installRom, loadImage, given, size, Nat.not_le.mpr large]

theorem installRom_ok (b : Board) (h : ImageFits w c k) : ∃ b', b.installRom w c k = .ok b' := by
  cases hfile : c.romFile k with
  | none => exact ⟨b, installRom_absent b hfile⟩
  | some file =>
    obtain ⟨n, size, fits⟩ := h file hfile
    exact ⟨_, installRom_loads b hfile size fits⟩

/-- Without a CPU composition ends at its first step (R105). -/
theorem createBoard_cpuUnavailable (hc : c.wf = true) (hcpu : w.cpuAvailable = false) :
    createBoard w c = .error .cpuUnavailable := by
  simp [createBoard, createSoc, hc, hcpu]

/-- With a CPU composition is slot 0's step, then slot 1's, then the entry point, ended by the first
error (R94, R104). -/
theorem createBoard_of_cpu (hc : c.wf = true) (hcpu : w.cpuAvailable = true) :
    createBoard w c = (((createPeripherals c).mapRam c).installRom w c .rom0).bind fun b =>
      (b.installRom w c .rom1).map fun b => b.setEntry c := by
  simp only [createBoard, createSoc, hc, hcpu, if_true]
  cases ((createPeripherals c).mapRam c).installRom w c .rom0 with
  | error => rfl
  | ok b =>
    dsimp only [Except.bind]
    cases b.installRom w c .rom1 <;> rfl

/-- Slot 0's error ends composition, whatever slot 1 has (R94). -/
theorem createBoard_rom0_error (hc : c.wf = true) (hcpu : w.cpuAvailable = true) (h : ImageError w c .rom0 e) :
    createBoard w c = .error e := by
  rw [createBoard_of_cpu hc hcpu, installRom_error _ h]
  rfl

/-- Slot 1's error ends composition when slot 0 has none (R94). -/
theorem createBoard_rom1_error (hc : c.wf = true) (hcpu : w.cpuAvailable = true) (h0 : ImageFits w c .rom0)
    (h : ImageError w c .rom1 e) : createBoard w c = .error e := by
  obtain ⟨b, hb⟩ := installRom_ok ((createPeripherals c).mapRam c) h0
  rw [createBoard_of_cpu hc hcpu, hb, Except.bind, installRom_error b h]
  rfl

/-- Without a fatal error there is a machine (R94, R104). -/
theorem createBoard_ok (hc : c.wf = true) (hcpu : w.cpuAvailable = true) (h : ∀ k, ImageFits w c k) :
    ∃ b, createBoard w c = .ok b := by
  obtain ⟨b, hb⟩ := installRom_ok ((createPeripherals c).mapRam c) (h .rom0)
  obtain ⟨b', hb'⟩ := installRom_ok b (h .rom1)
  exact ⟨b'.setEntry c, by rw [createBoard_of_cpu hc hcpu, hb, Except.bind, hb']; rfl⟩

end Compose

/-- Settles O38: the CPU's step comes first, then slot 0's, then slot 1's. -/
theorem firstFatalErrorEndsComposition : Obligations.FirstFatalErrorEndsComposition := by
  intro w c hc
  refine ⟨createBoard_cpuUnavailable hc, fun hcpu file given => ⟨fun size => ?_, fun n size large => ?_⟩,
    fun hcpu fits0 file given => ⟨fun size => ?_, fun n size large => ?_⟩, createBoard_ok hc⟩
  · exact createBoard_rom0_error hc hcpu (.missing given size)
  · exact createBoard_rom0_error hc hcpu (.tooLarge given size large)
  · exact createBoard_rom1_error hc hcpu fits0 (.missing given size)
  · exact createBoard_rom1_error hc hcpu fits0 (.tooLarge given size large)

end Sys2Proof.Machine

/-! SUPPORT. The byte that waits in RX until it is read (R115), and the board that composition answers (R104 to R111). -/

namespace Sys2Proof.Machine

/-! ### While a byte waits -/

/-- The byte `b` waits in RX, and RX_READY says so (R16, R17, R83). -/
def BytePending (b : Byte) (s : State) : Prop := rxReady s.cfg s.uart = true ∧ s.uart.rx = rxWord b

theorem bytePending_acceptByte (s : State) (b : Byte) : BytePending b (s.acceptByte b) :=
  ⟨rxReady_setRxReady _ _, rfl⟩

/-- Only an RX read and RESET take a waiting byte away: a further delivery is a violation, which leaves RX (R84, R115). -/
theorem exec_keeps_bytePending {i : Instr} {s t : State} {b : Byte} (h : exec i s = .next t) (hread : i ≠ .uartRdRx)
    (hreset : i ≠ .reset) (hs : BytePending b s) : BytePending b t := by
  cases exec_deviceEffect h with
  | untouched same => rwa [BytePending, same.cfg, same.uart]
  | started | ticked | sent => exact hs
  | consumed => exact absurd rfl hread
  | cleared => exact absurd rfl hreset
  | accepted _ _ notReady =>
    obtain ⟨hready, -⟩ := hs
    exact absurd hready (ne_true_of_eq_false notReady)

/-- Settles O21: the accepted delivery leaves its byte waiting, every operation after it keeps it waiting, and the STATUS
read leaves RX to the RX read. -/
theorem pendingByteSurvivesUntilRead : Obligations.PendingByteSurvivesUntilRead := by
  intro s t b is hc hready his h
  obtain ⟨r, hr, hrt⟩ := execAll_cons_next h
  obtain rfl : s.acceptByte b = r := Host.Outcome.next.inj ((deliver_accepts hc hready b).symm.trans hr)
  obtain ⟨htready, htrx⟩ : BytePending b t :=
    execAll_keeps (fun i hi _ _ he hp => have ⟨hread, hreset⟩ := his i hi
      exec_keeps_bytePending he hread hreset hp) hrt (bytePending_acceptByte s b)
  exact ⟨t.readOk t.uart.st, (t.readOk t.uart.st).consumeRx, rfl, htready, rfl, htrx, rxReady_clearRxReady _ _⟩

/-! ### The composed board -/

/-- The region of a slot, present only when its image is given (R28, R109). -/
def slotRegions (c : Config) (k : Slot) : List Region := ([k].filter (romPresent c)).map (romRegion c)

/-- What is loaded into a slot's flash: its image, whole, if one is given (R109). -/
def slotLoads (w : Surroundings) (c : Config) (k : Slot) : List (Slot × Nat) :=
  ((c.romFile k).bind w.imageSize).toList.map (k, ·)

/-- The board with slot `k` mapped and loaded. -/
def Board.withSlot (b : Board) (w : Surroundings) (c : Config) (k : Slot) : Board :=
  { b with regions := b.regions ++ slotRegions c k, loaded := b.loaded ++ slotLoads w c k }

/-- The board of R26 and R28: the reset state, the region table, and each image given in its flash. -/
def composedBoard (w : Surroundings) (c : Config) : Board :=
  ⟨State.ofConfig c, regionTable c, slotLoads w c .rom0 ++ slotLoads w c .rom1⟩

section Composed
variable {w : Surroundings} {c : Config} {k : Slot}

theorem slotRegions_of_absent (h : c.romFile k = none) : slotRegions c k = [] := by
  simp [slotRegions, romPresent, h]

theorem slotRegions_of_given {file : String} (h : c.romFile k = some file) : slotRegions c k = [romRegion c k] := by
  simp [slotRegions, romPresent, h]

theorem romRegions_eq (c : Config) : romRegions c = slotRegions c .rom0 ++ slotRegions c .rom1 := by
  rw [slotRegions, slotRegions, ← List.map_append, ← List.filter_append]
  rfl

theorem slotLoads_of_absent (h : c.romFile k = none) : slotLoads w c k = [] := by
  simp [slotLoads, h]

theorem slotLoads_of_given {file : String} {n : Nat} (given : c.romFile k = some file)
    (size : w.imageSize file = some n) : slotLoads w c k = [(k, n)] := by
  simp [slotLoads, given, size]

theorem imageFits_of_absent (h : c.romFile k = none) : ImageFits w c k := by
  intro file given
  cases h.symm.trans given

theorem imageFits_of_given {file : String} {n : Nat} (given : c.romFile k = some file)
    (size : w.imageSize file = some n) (fits : n ≤ c.flashSize k) : ImageFits w c k := by
  intro file' given'
  obtain rfl : file = file' := Option.some.inj (given.symm.trans given')
  exact ⟨n, size, fits⟩

/-- An image that does not fit is missing or too large (R109, R110). -/
theorem imageError_of_not_fits (h : ¬ ImageFits w c k) : ∃ e, ImageError w c k e := by
  simp only [ImageFits, not_forall, not_exists, not_and, Nat.not_le] at h
  obtain ⟨file, given, large⟩ := h
  cases size : w.imageSize file with
  | none => exact ⟨_, .missing given size⟩
  | some n => exact ⟨_, .tooLarge given size (large n size)⟩

/-- The step of a slot whose image fits maps its region and loads the image (R109). -/
theorem installRom_of_fits (b : Board) (h : ImageFits w c k) : b.installRom w c k = .ok (b.withSlot w c k) := by
  cases given : c.romFile k with
  | none => simp [installRom_absent b given, Board.withSlot, slotRegions_of_absent given, slotLoads_of_absent given]
  | some file =>
    obtain ⟨n, size, fits⟩ := h file given
    rw [installRom_loads b given size fits, Board.withSlot, slotRegions_of_given given, slotLoads_of_given given size]

/-- The steps of composition together build the composed board (R104, R106 to R111). -/
theorem composedBoard_eq (w : Surroundings) (c : Config) :
    ((((createPeripherals c).mapRam c).withSlot w c .rom0).withSlot w c .rom1).setEntry c = composedBoard w c := by
  have hregions : ramRegion c :: (timerRegions c ++ [uartRegion c]) ++ slotRegions c .rom0 ++ slotRegions c .rom1
      = regionTable c := by
    simp [regionTable, romRegions_eq]
  rw [composedBoard, ← hregions]
  rfl

theorem createBoard_illegal (hc : ¬ c.wf = true) : createBoard w c = .error .illegalConfiguration := if_neg hc

/-- Composition answers a board for exactly the legal configurations that have a CPU and whose images fit, and the board
is the composed one (R94, R104). -/
theorem createBoard_eq_ok_iff {b : Board} : createBoard w c = .ok b ↔
    c.wf = true ∧ w.cpuAvailable = true ∧ (∀ k, ImageFits w c k) ∧ b = composedBoard w c := by
  have hcomposed (hc : c.wf = true) (hcpu : w.cpuAvailable = true) (fits : ∀ k, ImageFits w c k) :
      createBoard w c = .ok (composedBoard w c) := by
    rw [createBoard_of_cpu hc hcpu, installRom_of_fits _ (fits .rom0), Except.bind, installRom_of_fits _ (fits .rom1),
      ← composedBoard_eq]
    rfl
  constructor
  · intro h
    have no_error {e : Fatal} : createBoard w c ≠ .error e := by simp [h]
    have hc : c.wf = true := by_contra fun hc => no_error (createBoard_illegal hc)
    have hcpu : w.cpuAvailable = true := by
      rw [← Bool.not_eq_false]
      exact fun hcpu => no_error (createBoard_cpuUnavailable hc hcpu)
    have fits0 : ImageFits w c .rom0 := by
      by_contra hfits
      obtain ⟨e, he⟩ := imageError_of_not_fits hfits
      exact no_error (createBoard_rom0_error hc hcpu he)
    have fits1 : ImageFits w c .rom1 := by
      by_contra hfits
      obtain ⟨e, he⟩ := imageError_of_not_fits hfits
      exact no_error (createBoard_rom1_error hc hcpu fits0 he)
    have fits : ∀ k, ImageFits w c k
      | .rom0 => fits0
      | .rom1 => fits1
    exact ⟨hc, hcpu, fits, Except.ok.inj (h.symm.trans (hcomposed hc hcpu fits))⟩
  · rintro ⟨hc, hcpu, fits, rfl⟩
    exact hcomposed hc hcpu fits

/-- The composed board's flash of a slot holds the slot's image whole (R109). -/
theorem mem_loaded_of_given {file : String} {n : Nat} (given : c.romFile k = some file)
    (size : w.imageSize file = some n) : (k, n) ∈ (composedBoard w c).loaded := by
  have hmem : (k, n) ∈ slotLoads w c k := by simp [slotLoads_of_given given size]
  cases k with
  | rom0 => exact List.mem_append_left _ hmem
  | rom1 => exact List.mem_append_right _ hmem

/-- There are two slots (R109). -/
theorem slot_eq_or_eq {k k' : Slot} (hk : k ≠ k') (j : Slot) : j = k ∨ j = k' := by
  revert hk
  cases k <;> cases k' <;> cases j <;> decide

/-- With an image in one slot only, that image is all that is loaded (R109). -/
theorem loaded_of_only {k' : Slot} {file : String} {n : Nat} (hk : k ≠ k') (given : c.romFile k = some file)
    (absent : c.romFile k' = none) (size : w.imageSize file = some n) : (composedBoard w c).loaded = [(k, n)] := by
  have hgiven : slotLoads w c k = [(k, n)] := slotLoads_of_given given size
  have habsent : slotLoads w c k' = [] := slotLoads_of_absent absent
  cases k with
  | rom0 =>
    obtain rfl : Slot.rom1 = k' := (slot_eq_or_eq hk .rom1).resolve_left (by decide)
    rw [composedBoard, hgiven, habsent, List.append_nil]
  | rom1 =>
    obtain rfl : Slot.rom0 = k' := (slot_eq_or_eq hk .rom0).resolve_left (by decide)
    rw [composedBoard, hgiven, habsent, List.nil_append]

/-- The error of a slot's image ends composition when the other slot's fits (R94). -/
theorem createBoard_error_of_only {k' : Slot} {e : Fatal} (hc : c.wf = true) (hcpu : w.cpuAvailable = true) (hk : k ≠ k')
    (fits : ImageFits w c k') (h : ImageError w c k e) : createBoard w c = .error e := by
  cases k with
  | rom0 => exact createBoard_rom0_error hc hcpu h
  | rom1 =>
    obtain rfl : Slot.rom0 = k' := (slot_eq_or_eq hk .rom0).resolve_left (by decide)
    exact createBoard_rom1_error hc hcpu fits h

end Composed

/-- Settles O37: the board composition answers is the composed one, whose state meets the invariant. -/
theorem compositionBuildsResetMachine : Obligations.CompositionBuildsResetMachine := by
  intro w c b h
  obtain ⟨hc, hcpu, fits, rfl⟩ := createBoard_eq_ok_iff.mp h
  refine ⟨hc, hcpu, fun k file given => ?_, rfl, rfl, State.inv_ofConfig hc⟩
  obtain ⟨n, size, hn⟩ := fits k file given
  exact ⟨n, size, hn, mem_loaded_of_given given size⟩

/-- Settles O39: at the flash's size the image fits and is all that is loaded; one byte more is the slot's error. -/
theorem imageSizeBoundary : Obligations.ImageSizeBoundary := by
  intro w c k k' file hc hcpu hk given absent
  have fits' : ImageFits w c k' := imageFits_of_absent absent
  refine ⟨fun size => ?_, fun size => ?_⟩
  · have fits : ImageFits w c k := imageFits_of_given given size le_rfl
    have fits_all (j : Slot) : ImageFits w c j := by
      obtain rfl | rfl := slot_eq_or_eq hk j
      · exact fits
      · exact fits'
    exact ⟨composedBoard w c, createBoard_eq_ok_iff.mpr ⟨hc, hcpu, fits_all, rfl⟩, loaded_of_only hk given absent size⟩
  · exact createBoard_error_of_only hc hcpu hk fits' (.tooLarge given size (Nat.lt_succ_self _))

end Sys2Proof.Machine
